-- ==== Sys2Proof/Word.lean ====
section
/-! DEFINITION. The word types of the UMZ-7104 and the sparse tables that hold its large stores: a list of
(index, word) pairs with rising indices and no zero word, so that equal stores are equal lists. -/

namespace Sys2Proof

/-- A scalar register, status word, operand word or record word (R15). -/
abbrev W64 := BitVec 64
/-- A vector register, bypass latch or result-bank row (R16, R24, R31). -/
abbrev W1024 := BitVec 1024
/-- A guard: one bit per byte lane (R17). -/
abbrev W128 := BitVec 128
/-- An expanded bundle (R55). -/
abbrev W512 := BitVec 512
/-- A control word (R69). -/
abbrev W256 := BitVec 256
/-- A byte of any store. -/
abbrev Byte := BitVec 8

/-- One of the 320 cores: die c / 80, cluster c / 10, position c mod 10 (R1). -/
abbrev CoreId := Fin 320
/-- One of the eight physical functions (R6). -/
abbrev FnId := Fin 8

/-- A store of words of one width by index. An index that is not listed holds zero. -/
abbrev Sparse (w : Nat) := List (Nat × BitVec w)

namespace Sparse
variable {w : Nat}

/-- The word at an index: the first entry for it, or zero. -/
def get : Sparse w → Nat → BitVec w
  | [], _ => 0
  | (j, x) :: m, k => if k = j then x else get m k

/-- The entries for words at consecutive indices, zero words left out. -/
def entries : Nat → List (BitVec w) → Sparse w
  | _, [] => []
  | a, v :: vs => if v = 0 then entries (a + 1) vs else (a, v) :: entries (a + 1) vs

/-- Writes words at consecutive indices; a zero word removes the entry it would have had. -/
def write (m : Sparse w) (a : Nat) (vs : List (BitVec w)) : Sparse w :=
  m.filter (fun e => decide (e.1 < a)) ++ entries a vs ++ m.filter (fun e => decide (a + vs.length ≤ e.1))

/-- Writes one word. -/
def set (m : Sparse w) (k : Nat) (v : BitVec w) : Sparse w := m.write k [v]

/-- n words from an index. -/
def read (m : Sparse w) : Nat → Nat → List (BitVec w)
  | _, 0 => []
  | a, n + 1 => m.get a :: read m (a + 1) n

/-- The canonical form, from a least index on: indices rise strictly and no listed word is zero. -/
def wfFrom : Nat → Sparse w → Bool
  | _, [] => true
  | lo, (j, x) :: m => decide (lo ≤ j) && decide (x ≠ 0) && wfFrom (j + 1) m

/-- The canonical form. -/
def wf (m : Sparse w) : Bool := wfFrom 0 m

end Sparse

/-- A byte store: local, spill, latch, weight-store and physical memory alike. -/
abbrev Memory := Sparse 8

/-- The canonical form of a byte store. -/
abbrev Memory.wf (m : Memory) : Bool := Sparse.wf m

/-- A set of numbers as a rising list: poisoned units, pending pages and the like. -/
abbrev NatSet := List Nat

/-- The two's-complement value of a word. -/
abbrev sval {w : Nat} (x : BitVec w) : Int := x.toInt
/-- The unsigned value of a word. -/
abbrev uval {w : Nat} (x : BitVec w) : Nat := x.toNat

end Sys2Proof
end

