-- ==== Sys2Proof/Syntax.lean ====
section
/-! DEFINITION. What the machine can be asked to do, as decoded data: the operands of the eight slots of a bundle
(R55 to R89), the micro-words of the matrix program store (R180 to R184), and the events and commands of the device.
`Instr` has one constructor for each row of the table of operations and events. -/

namespace Sys2Proof

/-- The fifteen element formats and "none" (R70). -/
inductive Fmt where
  | none | i8 | n8 | i16 | n16 | i32 | n32 | i64 | n64 | e4m3 | bf16 | f16 | f32 | ph8 | ph16 | phc32
  deriving DecidableEq, Repr

/-- The slot an operation of the common layout stands in (R63). -/
inductive AluUnit where
  | s | va | vb
  deriving DecidableEq, Repr

/-- A source field (R64). -/
inductive Src where
  | reg (n : BitVec 6) | zero | imm | k0 | k1 | latch (n : BitVec 4)
  deriving DecidableEq, Repr

/-- A PRE byte of the control word (R73). -/
structure Pre where
  neg : Bool
  abs : Bool
  ext : Bool
  bc  : Bool
  el  : BitVec 4
  deriving DecidableEq, Repr

/-- POST (R74). -/
inductive Post where
  | none | conv | clamp | rsum | rmax | rmin
  deriving DecidableEq, Repr

/-- SAT (R72). -/
inductive Sat where
  | none | sat | satf
  deriving DecidableEq, Repr

/-- The fields of a control word beside its operation and slot mask (R69). -/
structure CtlWord where
  fa : Fmt
  fb : Fmt
  fc : Fmt
  fd : Fmt
  sat : Sat
  prea : Pre
  preb : Pre
  prec : Pre
  post : Post
  k0 : BitVec 32
  k1 : BitVec 32
  perm : BitVec 64
  deriving DecidableEq, Repr

/-- The fields every slot carries: guard, inversion and arrive-on-retire (R18, R66). -/
structure Guarding where
  g   : BitVec 4
  inv : Bool
  arr : Option (BitVec 4)
  deriving DecidableEq, Repr

/-- An S, VA or VB operation with the control word its CX names (R63). `msk` is the word's slot mask: MS, MVA, MVB. -/
structure AluOp where
  unit : AluUnit
  cx   : BitVec 9
  w    : BitVec 2
  d    : BitVec 6
  nowb : Bool
  a    : Src
  b    : Src
  c    : Src
  gd   : Guarding
  imm  : BitVec 12
  msk  : BitVec 3
  cw   : CtlWord
  deriving DecidableEq, Repr

/-- A branch-form operation (R68). -/
structure BrOp where
  cx   : BitVec 9
  w    : BitVec 2
  disp : BitVec 24
  gd   : Guarding
  imm  : BitVec 12
  deriving DecidableEq, Repr

/-- Latch mode of a matrix call (R80, R170). -/
inductive LatchMode where
  | use | loadUse | loadOnly
  deriving DecidableEq, Repr

/-- The M slot (R80). -/
structure MxOp where
  rt   : BitVec 8
  sl   : BitVec 2
  lm   : LatchMode
  rbk  : BitVec 4
  acc  : Bool
  land : BitVec 12
  gd   : Guarding
  ovr  : Option (BitVec 3 × BitVec 16)
  deriving DecidableEq, Repr

/-- The spaces (R83). -/
inductive Space where
  | loc | clu | glob | ws | spill | handle
  deriving DecidableEq, Repr

/-- The LD and ST slots (R82). `base` none is the constant zero. -/
structure MemOp where
  nr    : Bool
  k     : Bool
  reg   : BitVec 6
  space : Space
  base  : Option (BitVec 6)
  off   : BitVec 18
  land  : BitVec 12
  w     : BitVec 2
  gd    : Guarding
  deriving DecidableEq, Repr

/-- Completion mode of a copy (R86, R215). -/
inductive CpMode where
  | plain | fe | ui
  deriving DecidableEq, Repr

/-- The CP slot (R86). -/
structure CpOp where
  mode : CpMode
  dsp  : Space
  db   : BitVec 6
  doff : BitVec 8
  ssp  : Space
  sb   : BitVec 6
  len  : BitVec 6
  gd   : Guarding
  deriving DecidableEq, Repr

/-- The SY slot (R88). -/
structure SyOp where
  bar : BitVec 4
  sa  : BitVec 6
  sb  : BitVec 6
  imm : BitVec 16
  gd  : Guarding
  deriving DecidableEq, Repr

/-- mu.lat (R181). `kind`: 0 b8, 1 bf16, 2 bf16q, 3 ph. -/
structure MuLat where
  h     : Bool
  space : Space
  ap    : BitVec 3
  sp    : BitVec 3
  kind  : BitVec 2
  deriving DecidableEq, Repr

/-- A block operation's fields (R182). -/
structure MuMma where
  am    : BitVec 2
  h     : Bool
  bo    : BitVec 4
  space : Space
  ap    : BitVec 3
  sp    : BitVec 3
  win   : Bool
  tp    : BitVec 3
  sga   : Bool
  sgb   : Bool
  deriving DecidableEq, Repr

/-- mu.drain (R183). -/
structure MuDrain where
  fd    : Fmt
  space : Space
  ap    : BitVec 3
  sp    : BitVec 3
  bo    : BitVec 4
  q     : Bool
  deriving DecidableEq, Repr

/-- mu.adv (R184). `y` some: the step is parameter mpY; none: the immediate. -/
structure MuAdv where
  x   : BitVec 3
  y   : Option (BitVec 3)
  imm : BitVec 32
  deriving DecidableEq, Repr

/-- mu.loop (R184). -/
structure MuLoop where
  x : BitVec 3
  t : BitVec 11
  deriving DecidableEq, Repr

/-- The shape of a block operation (R176, R185). -/
inductive MmaKind where
  | e4m3 | bf16 | bf16q | i8 | ph
  deriving DecidableEq, Repr

/-- A decoded micro-word (R176). -/
inductive Micro where
  | lat (u : MuLat) | mma (k : MmaKind) (u : MuMma) | drain (u : MuDrain) | adv (u : MuAdv) | loop (u : MuLoop) | end_
  deriving DecidableEq, Repr

/-- A unit of storage that an error can meet (R404, R407). -/
inductive ErrUnit where
  | memUnit (unit : Nat)                       -- 64-byte unit of device memory
  | spadLine (c : CoreId) (line : Fin 3072)
  | cwtEntry (c : CoreId) (e : Fin 512)
  | routine (c : CoreId) (e : Fin 256)
  | microWord (c : CoreId) (i : Fin 2048)
  | stagedRoutine (c : CoreId) (e : Fin 256)   -- of the staging half (R174)
  | stagedWord (c : CoreId) (i : Fin 2048)
  | supCwt (f : FnId) (e : Fin 64)
  | sreg (c : CoreId) (r : Fin 64)
  | vreg (c : CoreId) (r : Fin 64)
  | greg (c : CoreId) (r : Fin 16)
  | mpreg (c : CoreId) (r : Fin 8)
  | shreg (c : CoreId) (r : Fin 16)
  | xlatch (c : CoreId) (r : Fin 16)
  | bankRow (c : CoreId) (b : Fin 16) (r : Fin 32)
  | slHalf (c : CoreId) (l : Fin 4) (h : Bool)
  | spill (c : CoreId) (u : Fin 512)
  | oasis (c : CoreId) (seq : Nat)
  | wsUnit (d : Fin 4) (unit : Nat)
  deriving DecidableEq, Repr

/-- A register of a function's configuration space (R394, R425). -/
inductive CfgReg where
  | bar0 | bar2 | bar4 | command
  deriving DecidableEq, Repr

/-- A machine-level change of an assignment (R382). `fn` none takes the resource away. -/
inductive Assign where
  | cluster (c : Fin 32) (fn : Option FnId) (sec : Bool)
  | granule (g : Fin 477) (fn : Option FnId) (sec : Bool)
  | queue (q : Fin 64) (fn : FnId)
  | slot (m : Fin 16) (fn : FnId)
  | mask (fn : FnId) (v : BitVec 10)           -- a function's feature mask (R393)
  deriving DecidableEq, Repr

/-- A monitor: of a cluster or of a channel controller (R419). -/
inductive MonId where
  | cluster (c : Fin 32) | channel (m : Fin 256)
  deriving DecidableEq, Repr

/-- The kinds of device reset (R433). -/
inductive ResetKind where
  | fundamental | hot | linkDown
  deriving DecidableEq, Repr

/-- Where a debug or trace request arrives (R399). -/
inductive DebugPort where
  | debug | trace | machine
  deriving DecidableEq, Repr

/-- The integer and floating operations of atomics, reductions and window merges (R210). -/
inductive RedOp where
  | add | minN | maxN | minI | maxI | and | or | xor | swap | cas | fadd
  deriving DecidableEq, Repr

/-- An access that a peer device makes to this device's memory (R268): plain bytes by physical address and key slot,
an atomic, or a window partial of a round (R286). -/
inductive PeerAccess where
  | read (pa : Nat) (n : Nat) (key : BitVec 12)
  | write (pa : Nat) (d : List Byte) (key : BitVec 12)
  | atomic (op : RedOp) (pa : Nat) (w64 : Bool) (v : W64) (cmp : W64) (key : BitVec 12)
  | partial_ (loc : Nat) (op : RedOp) (w64 : Bool) (key : BitVec 12) (v : W64)
  deriving DecidableEq, Repr


/-- The operations of the S, VA and VB slots that use the common layout (R63, R77). -/
inductive AluTag where
  | add | sub | mul | mulh | min | max | mov | and | or
  | xor | andn | shl | shr | rotl | sel | fma | fms | div
  | rem | clz | popc | cvt | cmpEq | cmpNe | cmpLt | cmpLe | cmpPhb
  | cmpPho | gand | gor | gxor | gandn | gtos | stog | phmul | phsub
  | jr | callr | ret | mfsw | mtsw | movMp | mfmp | break | syscall
  | uiret | resume | cwtWr | cwtRd | mpsWr | ctxSave | ctxLoad | bankSave | bankLoad
  | fmaskRd | fmaskWr | vadd | vsub | vmul | vmulh | vmin | vmax | vmov
  | vand | vor | vxor | vandn | vshl | vshr | vsel | vfma | vfms
  | vclz | vpopc | vcvt | vcmpEq | vcmpNe | vcmpLt | vcmpLe | vcmpUn | vcmpPhb
  | vcmpPho | vperm | vbcast | vext | vrow | vwrow | vscacc | vredsum | vredmax
  | vredmin | vrcp | vrsqrt | vsqrt | vexp2 | vlog2 | vsin | vcos | vphmul
  | vphsub | vphacc | vphres
  deriving DecidableEq, Repr

/-- The operations in branch form (R68). -/
inductive BrTag where
  | br | call | loopBr
  deriving DecidableEq, Repr

/-- The operations of the LD and ST slots (R84). -/
inductive MemTag where
  | ld | ldAcq | ldTake | ldPf | st | stRel | stFill | atFadd | redFadd
  | atMinN | atMaxN | redMinN | redMaxN | atAdd | redAdd | atMinI | atMaxI | redMinI
  | redMaxI | atAnd | atOr | atXor | redAnd | redOr | redXor | atSwap | atCas
  deriving DecidableEq, Repr

/-- The operations of the CP slot (R87). -/
inductive CpTag where
  | cpCopy | cpFill | cpClose | bxTr | bxIlv | bxGth | bxSct | bxBc
  deriving DecidableEq, Repr

/-- The operations of the SY slot (R88); sy.yield has one tag for a user stream and one for a supervisor stream (R378). -/
inductive SyTag where
  | barInitImm | barInitReg | barExpectImm | barExpectReg | barArrive | barWait | barTest | syFence | syQjoin
  | syWaitb | syFrame | syPhase | sySuspend | sySuspendEv | sySuspendFe | syYield | syYieldPark | sySpawn
  | syRetire | syIreg | syIend | syEvent | layout | mpsSwap
  deriving DecidableEq, Repr

/-- The steps of the machine: one constructor for each row of the table of operations and events. A slot
operation carries its decoded slot body; an event carries what the table's step is about. -/
inductive Instr where
  /-- After its STAMP idle cycles have counted down, a stored bundle is fetched, expanded against PEB, checked and issued; an empty bundle only spends its STAMP. (R60) -/
  | bundleIssue (c : CoreId)
  /-- A bundle held by a full queue, an SY operation or a SEQ access issues once its hold ends. (R39) -/
  | heldBundleIssue (c : CoreId)
  /-- At the end of cycle t+L−1 a fixed-latency S, VA or VB result is written to its destination and shifts its latch group. (R19) -/
  | resultWriteback (c : CoreId)
  /-- Data of a load, an at-form return or a global frame pop arrives at the core; it is written if due, otherwise placed in the oasis or held at the port. (R27) -/
  | loadDataReturn (c : CoreId) (seq : Nat)
  /-- A landing cycle arrives; oasis data is written to its register, and the clock domain freezes if the data has not arrived. (R28) -/
  | landingDue (c : CoreId)
  /-- A result bank's landing countdown reaches zero; the core freezes if the matrix engine has not yet completed the bank. (R32) -/
  | bankLanded (c : CoreId) (b : Fin 16)
  /-- S-slot add of two exact integer values brought into FD under SAT. (R121) -/
  | add (o : AluOp)
  /-- S-slot subtract brought into FD under SAT. (R121) -/
  | sub (o : AluOp)
  /-- S-slot multiply with latency 3, brought into FD under SAT. (R121) -/
  | mul (o : AluOp)
  /-- S-slot high half of a product, floor(a×b/2^wD). (R121) -/
  | mulh (o : AluOp)
  /-- S-slot minimum of two exact values. (R121) -/
  | min (o : AluOp)
  /-- S-slot maximum of two exact values. (R121) -/
  | max (o : AluOp)
  /-- S-slot move of a source into FD under SAT. (R121) -/
  | mov (o : AluOp)
  /-- S-slot bitwise and. (R121) -/
  | and (o : AluOp)
  /-- S-slot bitwise or. (R121) -/
  | or (o : AluOp)
  /-- S-slot bitwise exclusive or. (R121) -/
  | xor (o : AluOp)
  /-- S-slot bitwise a and not b. (R121) -/
  | andn (o : AluOp)
  /-- S-slot shift left by b mod 256 under SAT. (R121) -/
  | shl (o : AluOp)
  /-- S-slot shift right, arithmetic for i formats and logical for n formats. (R121) -/
  | shr (o : AluOp)
  /-- S-slot rotate left of the FA pattern. (R121) -/
  | rotl (o : AluOp)
  /-- S-slot select of a or b by bit 0 of a guard. (R121) -/
  | sel (o : AluOp)
  /-- S-slot exact a×b+c brought into FD. (R121) -/
  | fma (o : AluOp)
  /-- S-slot exact a×b−c brought into FD. (R121) -/
  | fms (o : AluOp)
  /-- S-slot division truncating toward zero; division by zero gives all ones and sets ksr.DIV0. (R122) -/
  | div (o : AluOp)
  /-- S-slot remainder of truncating division; division by zero sets ksr.DIV0. (R122) -/
  | rem (o : AluOp)
  /-- S-slot count of leading zeros of the FA pattern. (R121) -/
  | clz (o : AluOp)
  /-- S-slot count of ones in the FA pattern. (R121) -/
  | popc (o : AluOp)
  /-- S-slot conversion between integer formats, or between ph8 and ph16. (R121) -/
  | cvt (o : AluOp)
  /-- S-slot compare for equality, writing every bit of a guard. (R123) -/
  | cmpEq (o : AluOp)
  /-- S-slot compare for inequality, writing a guard. (R123) -/
  | cmpNe (o : AluOp)
  /-- S-slot less-than compare, writing a guard. (R123) -/
  | cmpLt (o : AluOp)
  /-- S-slot less-or-equal compare, writing a guard. (R123) -/
  | cmpLe (o : AluOp)
  /-- S-slot phasor compare, setting a guard where phase_order is BEFORE. (R125) -/
  | cmpPhb (o : AluOp)
  /-- S-slot phasor compare, setting a guard where phase_order is OPPOSITE. (R125) -/
  | cmpPho (o : AluOp)
  /-- Bitwise and of two guards into a guard. (R124) -/
  | gand (o : AluOp)
  /-- Bitwise or of two guards into a guard. (R124) -/
  | gor (o : AluOp)
  /-- Bitwise exclusive or of two guards into a guard. (R124) -/
  | gxor (o : AluOp)
  /-- Guard A and not guard B, into a guard. (R124) -/
  | gandn (o : AluOp)
  /-- Copies one 64-bit half of a guard into a scalar register. (R124) -/
  | gtos (o : AluOp)
  /-- Writes a scalar into one 64-bit half of a guard. (R124) -/
  | stog (o : AluOp)
  /-- S-slot phasor product, adding the two angles. (R125) -/
  | phmul (o : AluOp)
  /-- S-slot phasor angle difference. (R125) -/
  | phsub (o : AluOp)
  /-- Branch to the bundle address plus twice the displacement. (R131) -/
  | br (o : BrOp)
  /-- Jump to a register target after three idle cycles. (R131) -/
  | jr (o : AluOp)
  /-- Pushes a return frame and branches to a displacement target. (R133) -/
  | call (o : BrOp)
  /-- Pushes a return frame and jumps to a register target. (R133) -/
  | callr (o : AluOp)
  /-- Pops a frame and transfers to its return address. (R133) -/
  | ret (o : AluOp)
  /-- The global frame of a ret lands; its target is checked, OVP is updated and the transfer is made, or ALIGN is raised. (R133) -/
  | retFrameLanding (c : CoreId)
  /-- Counts LC down, rotates RB, writes the stage guard and branches back, or falls through when LC is 0. (R134) -/
  | loopBr (o : BrOp)
  /-- Copies a status word into a scalar register. (R126) -/
  | mfsw (o : AluOp)
  /-- Writes a scalar into a status word, with the word's own effects (SFC, AOWN, carea). (R126) -/
  | mtsw (o : AluOp)
  /-- Writes a scalar into the front copy of a matrix parameter. (R130) -/
  | movMp (o : AluOp)
  /-- Reads the front copy of a matrix parameter into a scalar. (R130) -/
  | mfmp (o : AluOp)
  /-- After its bundle issues, the core stops with cause BREAK and the code in cdata. (R135) -/
  | break (o : AluOp)
  /-- After its bundle issues, the core stops with cause SYSCALL and the code in cdata. (R135) -/
  | syscall (o : AluOp)
  /-- Ends a user-interrupt handler: starts the next held interrupt or pops the frame and replays the snapshot latch bank. (R138) -/
  | uiret (o : AluOp)
  /-- Supervisor instruction that checks and reissues a record list, restores the stopped stream and leaves the supervisor. (R358) -/
  | resume (o : AluOp)
  /-- Supervisor write of one control word table entry from memory. (R140) -/
  | cwtWr (o : AluOp)
  /-- Supervisor store of one control word table entry to memory. (R139) -/
  | cwtRd (o : AluOp)
  /-- Supervisor write of a routine entry or micro-word to the staging half of the matrix program store. (R140) -/
  | mpsWr (o : AluOp)
  /-- Writes the bulk parts of the core's context state to a context area and sets BULK. (R354) -/
  | ctxSave (o : AluOp)
  /-- Loads the bulk parts of a context area into the core and sets CAREA. (R354) -/
  | ctxLoad (o : AluOp)
  /-- Waits on the selected banks' countdowns and writes banks and latches bit-exactly to memory. (R141) -/
  | bankSave (o : AluOp)
  /-- Reads banks and latches back from memory and sets their countdowns to zero. (R141) -/
  | bankLoad (o : AluOp)
  /-- Reads the executing function's feature mask. (R142) -/
  | fmaskRd (o : AluOp)
  /-- Machine-level write of a function's feature mask, applied at each core's next bundle boundary. (R142) -/
  | fmaskWr (o : AluOp)
  /-- Element-wise vector add, rounded once into FD. (R150) -/
  | vadd (o : AluOp)
  /-- Element-wise vector subtract. (R150) -/
  | vsub (o : AluOp)
  /-- Element-wise vector multiply. (R150) -/
  | vmul (o : AluOp)
  /-- Element-wise high half of an integer product. (R150) -/
  | vmulh (o : AluOp)
  /-- Element-wise minimum with NaN and signed-zero rules. (R151) -/
  | vmin (o : AluOp)
  /-- Element-wise maximum with NaN and signed-zero rules. (R151) -/
  | vmax (o : AluOp)
  /-- Copies bit patterns element by element. (R150) -/
  | vmov (o : AluOp)
  /-- Element-wise bitwise and. (R150) -/
  | vand (o : AluOp)
  /-- Element-wise bitwise or. (R150) -/
  | vor (o : AluOp)
  /-- Element-wise bitwise exclusive or. (R150) -/
  | vxor (o : AluOp)
  /-- Element-wise a and not b. (R150) -/
  | vandn (o : AluOp)
  /-- Element-wise shift left. (R150) -/
  | vshl (o : AluOp)
  /-- Element-wise shift right. (R150) -/
  | vshr (o : AluOp)
  /-- Selects each element from A or B by a guard bit. (R152) -/
  | vsel (o : AluOp)
  /-- Element-wise a×b+c with one rounding. (R150) -/
  | vfma (o : AluOp)
  /-- Element-wise a×b−c with one rounding. (R150) -/
  | vfms (o : AluOp)
  /-- Element-wise count of leading zeros. (R150) -/
  | vclz (o : AluOp)
  /-- Element-wise count of ones. (R150) -/
  | vpopc (o : AluOp)
  /-- Converts each element to FD, with optional clamp and saturation. (R159) -/
  | vcvt (o : AluOp)
  /-- Element-wise equality compare, writing a guard. (R153) -/
  | vcmpEq (o : AluOp)
  /-- Element-wise inequality compare, writing a guard. (R153) -/
  | vcmpNe (o : AluOp)
  /-- Element-wise less-than compare, writing a guard. (R153) -/
  | vcmpLt (o : AluOp)
  /-- Element-wise less-or-equal compare, writing a guard. (R153) -/
  | vcmpLe (o : AluOp)
  /-- Element-wise unordered compare, true where either operand is NaN. (R153) -/
  | vcmpUn (o : AluOp)
  /-- Element-wise phasor compare for BEFORE, writing a guard. (R167) -/
  | vcmpPhb (o : AluOp)
  /-- Element-wise phasor compare for OPPOSITE, writing a guard. (R167) -/
  | vcmpPho (o : AluOp)
  /-- Permutes 64-bit chunks of A as the control word's PERM field gives. (R154) -/
  | vperm (o : AluOp)
  /-- Broadcasts one element of a scalar operand to every element. (R155) -/
  | vbcast (o : AluOp)
  /-- Extracts one vector element into a scalar register. (R156) -/
  | vext (o : AluOp)
  /-- Reads a result-bank row into a vector register, optionally draining to bf16. (R160) -/
  | vrow (o : AluOp)
  /-- Writes a vector register into a result-bank row and marks the bank dirty. (R161) -/
  | vwrow (o : AluOp)
  /-- Scales partial sums by the product of two f32 scales and accumulates with one rounding. (R164) -/
  | vscacc (o : AluOp)
  /-- Cross-lane sum by the fixed pairwise tree into element 0. (R157) -/
  | vredsum (o : AluOp)
  /-- Cross-lane maximum into element 0. (R157) -/
  | vredmax (o : AluOp)
  /-- Cross-lane minimum into element 0. (R157) -/
  | vredmin (o : AluOp)
  /-- Correctly rounded reciprocal of each element. (R165) -/
  | vrcp (o : AluOp)
  /-- Correctly rounded reciprocal square root. (R165) -/
  | vrsqrt (o : AluOp)
  /-- Correctly rounded square root. (R165) -/
  | vsqrt (o : AluOp)
  /-- Correctly rounded power of two. (R165) -/
  | vexp2 (o : AluOp)
  /-- Correctly rounded base-2 logarithm. (R165) -/
  | vlog2 (o : AluOp)
  /-- Sine by the fixed reduction and polynomial; out-of-range arguments set ksr.RANGE. (R166) -/
  | vsin (o : AluOp)
  /-- Cosine by the fixed reduction and polynomial. (R166) -/
  | vcos (o : AluOp)
  /-- Element-wise phasor product, adding angles. (R167) -/
  | vphmul (o : AluOp)
  /-- Element-wise phasor angle difference. (R167) -/
  | vphsub (o : AluOp)
  /-- Adds phasor terms into 128-bit accumulators with one step of R115. (R168) -/
  | vphacc (o : AluOp)
  /-- Computes the PHC32 resultant of each phasor accumulator. (R169) -/
  | vphres (o : AluOp)
  /-- Issues a matrix call: checks ownership, captures parameters, enqueues the call and sets bank countdowns. (R170) -/
  | mxCall (o : MxOp)
  /-- Micro-word that loads one half of the stationary latch with a B operand. (R181) -/
  | muLat (c : CoreId) (u : MuLat)
  /-- Micro-word block product of FP8 E4M3 operands into four banks. (R182) -/
  | muMmaE4m3 (c : CoreId) (u : MuMma)
  /-- Micro-word block product of BF16 operands into four banks. (R182) -/
  | muMmaBf16 (c : CoreId) (u : MuMma)
  /-- Micro-word quarter-array BF16 block product into one bank. (R182) -/
  | muMmaBf16q (c : CoreId) (u : MuMma)
  /-- Micro-word INT8 block product with exact i32 sums. (R182) -/
  | muMmaI8 (c : CoreId) (u : MuMma)
  /-- Micro-word phasor block that accumulates terms into bank accumulators. (R182) -/
  | muMmaPh (c : CoreId) (u : MuMma)
  /-- Micro-word that writes bank elements to memory in FD. (R183) -/
  | muDrain (c : CoreId) (u : MuDrain)
  /-- Micro-word that steps a parameter of the call's captured set. (R184) -/
  | muAdv (c : CoreId) (u : MuAdv)
  /-- Micro-word that decrements a counter parameter and loops while it is non-zero. (R184) -/
  | muLoop (c : CoreId) (u : MuLoop)
  /-- Micro-word that ends a part of the routine. (R184) -/
  | muEnd (c : CoreId)
  /-- A block operation's banks become complete at its last array cycle plus its completion depth. (R193) -/
  | blockComplete (c : CoreId)
  /-- A call's last micro-word finishes, freeing its matrix fetch queue entry and making its ARR arrival when due. (R173) -/
  | matrixCallComplete (c : CoreId)
  /-- The array reaches a faulting row or micro-word, so the call stops and the core traps at its next boundary. (R195) -/
  | matrixFault (c : CoreId)
  /-- A needed A row arrives, so a block operation stalled on it proceeds. (R193) -/
  | operandRowArrival (c : CoreId)
  /-- Load to a register from any of the six spaces, landing at its LAND. (R203) -/
  | ld (o : MemOp)
  /-- Load with acquire ordering, in the global or cluster space. (R203) -/
  | ldAcq (o : MemOp)
  /-- Waits for a scratchpad line to be full, then reads it and marks it empty indivisibly. (R204) -/
  | ldTake (o : MemOp)
  /-- Prefetches 128 bytes into the die cache with no visible effect. (R207) -/
  | ldPf (o : MemOp)
  /-- The load queue performs a load, reading memory once the line is full and redirecting handle elements. (R203) -/
  | loadPerform (c : CoreId)
  /-- Store of a register to memory through the store queue, or to the spill RAM. (R205) -/
  | st (o : MemOp)
  /-- Store with release ordering. (R205) -/
  | stRel (o : MemOp)
  /-- Stores into a scratchpad line and marks it full indivisibly. (R204) -/
  | stFill (o : MemOp)
  /-- The store queue performs a store, freeing its entry. (R205) -/
  | storePerform (c : CoreId)
  /-- Atomic f32 add at the home, returning the old value. (R210) -/
  | atFadd (o : MemOp)
  /-- Reduction f32 add at the home, returning nothing. (R210) -/
  | redFadd (o : MemOp)
  /-- Atomic unsigned minimum, returning the old value. (R210) -/
  | atMinN (o : MemOp)
  /-- Atomic unsigned maximum, returning the old value. (R210) -/
  | atMaxN (o : MemOp)
  /-- Reduction unsigned minimum. (R210) -/
  | redMinN (o : MemOp)
  /-- Reduction unsigned maximum. (R210) -/
  | redMaxN (o : MemOp)
  /-- Atomic integer add, returning the old value. (R210) -/
  | atAdd (o : MemOp)
  /-- Reduction integer add. (R210) -/
  | redAdd (o : MemOp)
  /-- Atomic signed minimum, returning the old value. (R210) -/
  | atMinI (o : MemOp)
  /-- Atomic signed maximum, returning the old value. (R210) -/
  | atMaxI (o : MemOp)
  /-- Reduction signed minimum. (R210) -/
  | redMinI (o : MemOp)
  /-- Reduction signed maximum. (R210) -/
  | redMaxI (o : MemOp)
  /-- Atomic bitwise and, returning the old value. (R210) -/
  | atAnd (o : MemOp)
  /-- Atomic bitwise or, returning the old value. (R210) -/
  | atOr (o : MemOp)
  /-- Atomic bitwise exclusive or, returning the old value. (R210) -/
  | atXor (o : MemOp)
  /-- Reduction bitwise and. (R210) -/
  | redAnd (o : MemOp)
  /-- Reduction bitwise or. (R210) -/
  | redOr (o : MemOp)
  /-- Reduction bitwise exclusive or. (R210) -/
  | redXor (o : MemOp)
  /-- Atomic swap, returning the old value. (R210) -/
  | atSwap (o : MemOp)
  /-- Atomic compare-and-swap, returning the old value. (R210) -/
  | atCas (o : MemOp)
  /-- An atomic or reduction is performed at its home, once its line is full. (R210) -/
  | atomicPerform (c : CoreId)
  /-- A red form to a reduction-window page reaches the device's Erg egress and is counted towards its round. (R286) -/
  | windowContribution (c : CoreId)
  /-- With every participant's partial present, the Erg switches merge the round by the fixed tree and apply one update at the home. (R287) -/
  | windowRoundMerge (loc : Nat)
  /-- Enqueues a copy of n bytes to the BTE, marking destination lines empty under full/empty mode. (R213) -/
  | cpCopy (o : CpOp)
  /-- Enqueues a fill of n bytes with an 8-byte pattern. (R214) -/
  | cpFill (o : CpOp)
  /-- Closes the open batch of copies. (R216) -/
  | cpClose (o : CpOp)
  /-- The BTE begins a copy or fill and makes its length, alignment and range checks. (R213) -/
  | copyBegin (c : CoreId)
  /-- The BTE writes one 128-byte destination piece and marks the line full under full/empty mode. (R213) -/
  | copyPieceWrite (c : CoreId)
  /-- Enqueues a scratchpad transpose to the barchan engine. (R221) -/
  | bxTr (o : CpOp)
  /-- Enqueues an interleave of K streams. (R221) -/
  | bxIlv (o : CpOp)
  /-- Enqueues an indexed gather, with optional mask and GOOB flag. (R222) -/
  | bxGth (o : CpOp)
  /-- Enqueues an indexed scatter, with optional mask and GOOB flag. (R223) -/
  | bxSct (o : CpOp)
  /-- Enqueues a broadcast of one element CNT times. (R221) -/
  | bxBc (o : CpOp)
  /-- The barchan engine begins the next shuffle in issue order and checks its shape word. (R219) -/
  | shuffleBegin (c : CoreId) (n : Nat)
  /-- A shuffle's last byte is written, making its ARR arrival and freeing its entry. (R219) -/
  | shuffleComplete (c : CoreId)
  /-- Sets a barrier's PEND and PART to an immediate, inverts PHASE and clears BROKEN. (R227) -/
  | barInitImm (o : SyOp)
  /-- Sets a barrier's PEND and PART from a register, inverts PHASE and clears BROKEN. (R227) -/
  | barInitReg (o : SyOp)
  /-- Adds an immediate to a barrier's PEND, trapping on overflow or a broken barrier. (R228) -/
  | barExpectImm (o : SyOp)
  /-- Adds a register value to a barrier's PEND. (R228) -/
  | barExpectReg (o : SyOp)
  /-- Makes one arrival at a barrier. (R226) -/
  | barArrive (o : SyOp)
  /-- Holds issue until the barrier's phase differs from the one recorded, or traps if broken. (R229) -/
  | barWait (o : SyOp)
  /-- Writes the barrier object's bits into a scalar register. (R229) -/
  | barTest (o : SyOp)
  /-- An arrival from an ARR field, an engine or another core decrements PEND, completing the phase or setting BROKEN. (R226) -/
  | barrierArrival (car : Nat) (b : Fin 16)
  /-- The core sees the phase flip or BROKEN, and the bar.wait hold ends. (R229) -/
  | barWaitRelease (c : CoreId)
  /-- Holds issue until every earlier operation is performed at the given scope. (R232) -/
  | syFence (o : SyOp)
  /-- Places a join in each named queue, ordering later operations after earlier ones. (R233) -/
  | syQjoin (o : SyOp)
  /-- Closes the open batch and holds issue until at most n batches are outstanding. (R217) -/
  | syWaitb (o : SyOp)
  /-- The condition of a holding SY operation comes to hold, so it retires and issue resumes. (R231) -/
  | syHoldEnd (c : CoreId)
  /-- Resets SFC to 0 and opens a stamped frame. (R296) -/
  | syFrame (o : SyOp)
  /-- Waits for the engine's earlier operations and opens a declared phase, trapping DET_OVERLAP on conflict. (R303) -/
  | syPhase (o : SyOp)
  /-- Ends the run, saving s0–s4 and parking the record on a barrier phase. (R235) -/
  | sySuspend (o : SyOp)
  /-- Ends the run and parks the record on an event flag. (R236) -/
  | sySuspendEv (o : SyOp)
  /-- Ends the run and parks the record until a scratchpad line is full. (R236) -/
  | sySuspendFe (o : SyOp)
  /-- In a user stream, ends the run and returns the record to its pool, runnable at once. (R235) -/
  | syYield (o : SyOp)
  /-- In a supervisor stream, parks the stopped stream's record in its pool and releases the core. (R378) -/
  | syYieldPark (o : SyOp)
  /-- Creates a continuation record with the given PC and stage, holding issue while the pool is full. (R238) -/
  | sySpawn (o : SyOp)
  /-- Ends the record's run and does not requeue it. (R239) -/
  | syRetire (o : SyOp)
  /-- Opens an idempotent region with a declared write set and buffered stores. (R240) -/
  | syIreg (o : SyOp)
  /-- Commits the region's held lines in store order and closes the region. (R240) -/
  | syIend (o : SyOp)
  /-- Sets or clears an event flag, waking records suspended on a set flag. (R237) -/
  | syEvent (o : SyOp)
  /-- Starts conversion of a tensor handle to a new base and tag through the seif engine. (R241) -/
  | layout (o : SyOp)
  /-- Waits for the matrix fetch queue to empty, validates the staging half and exchanges the halves. (R178) -/
  | mpsSwap (o : SyOp)
  /-- The seif engine locks a granule, copies it to the new layout, sets its bitmap bit and unlocks it. (R263) -/
  | granuleStep (d : Fin 4)
  /-- A seif step fault is delivered as LAYOUT_FAULT to one core of the context at its next boundary. (R372) -/
  | seifFaultDelivery (c : CoreId)
  /-- As the refresh counter enters a bank's window, that bank is refreshed for 40 ticks and reads to it wait. (R250) -/
  | weightStoreRefresh (b : Fin 64)
  /-- At a boundary with UIH = 0, a raised user interrupt freezes the kernel into the SLB and enters the handler, or is discarded if UIV is 0. (R136) -/
  | userInterruptDelivery (c : CoreId)
  /-- After uiret, each snapshot latch bank entry is written when its remaining kernel cycles expire. (R350) -/
  | slbReplay (c : CoreId)
  /-- A pending execution fault stops the core at its next bundle boundary. (R345) -/
  | executionFaultStop (c : CoreId)
  /-- A cause met by the supervisor stream sets cause with SUP, and restarts fetch at SVEC + 64. (R347) -/
  | supervisorCause (c : CoreId)
  /-- SLICE reaches zero, delivering PREEMPT, IREG_OVERFLOW or a region restart. (R368) -/
  | sliceExpiry (c : CoreId)
  /-- A requested pre-emption stops the core at its next bundle boundary. (R369) -/
  | preempt (c : CoreId)
  /-- An access homed on another device is not complete within 2^26 cycles, and FABRIC_TIMEOUT is raised. (R343) -/
  | fabricTimeout (c : CoreId) (seq : Nat)
  /-- A host writes a whole 128-byte launch record into a queue's launch region, which is checked and committed. (R319) -/
  | launchRecordWrite (f : FnId) (q : Fin 64) (r : BitVec 1024)
  /-- A host writes one 64-byte half of a launch record; the second half pairs with the latest first and commits. (R319) -/
  | launchHalfWrite (f : FnId) (q : Fin 64) (second : Bool) (d : BitVec 512)
  /-- An Erg port delivers a launch message carrying a whole record, which commits if the queue accepts Erg. (R319) -/
  | ergLaunchMessage (port : Fin 16) (q : Fin 64) (r : BitVec 1024)
  /-- Any other write to a launch region is discarded and sets ERR. (R319) -/
  | badLaunchWrite (f : FnId) (q : Fin 64)
  /-- The dispatcher admits a head record, checks its image and creates its caravan. (R324) -/
  | admission
  /-- The dispatcher creates the next continuation record of a caravan as pool space allows. (R327) -/
  | recordExpansion (car : Nat)
  /-- An idle core selects its next runnable record by escalation, priority, credits, locality and stage. (R333) -/
  | recordSelection (c : CoreId)
  /-- A core selects a parked record and enters the supervisor at SVEC with cause 0. (R379) -/
  | parkedRecordSelect (c : CoreId)
  /-- A waiting record's condition comes to hold, and it returns to the back of its pool. (R236) -/
  | recordWake (id : Nat)
  /-- A runnable record unselected for 2^20 cycles is escalated. (R335) -/
  | recordEscalation (id : Nat)
  /-- A head record that has waited 2^20 cycles since commit is placed ahead of all others for admission. (R324) -/
  | admissionEscalation (q : Fin 64)
  /-- The last record retires and its copies complete; writes become visible, CVAL is written, the interrupt is raised and resources freed. (R326) -/
  | caravanEnd (car : Nat)
  /-- A channel controller completes a window of 1,024 bursts and begins the next with its share allocation. (R337) -/
  | bandwidthWindow (ch : Fin 256)
  /-- An uncorrectable error marks its unit poisoned. (R405) -/
  | uncorrectableError (u : ErrUnit)
  /-- A correctable error is corrected in the data and the store, and counted. (R404) -/
  | correctableError (u : ErrUnit)
  /-- The machine level retires a channel, and its pages are moved, lost or retired. (R409) -/
  | channelRetire (k : Fin 8) (ch : Fin 32) (pages : List Nat)
  /-- A page of a retiring channel is locked, copied to a repair page and redirected. (R410) -/
  | pageMove (k : Fin 8) (page : Nat) (redirect : Bool)
  /-- The machine level retires a cluster, pre-empting its cores and moving live scratchpads to a replacement. (R413) -/
  | clusterRetire (cl : Fin 32) (repl : Option (Fin 32))
  /-- The scrubber zeroes and verifies one pending page of a granule under slot 0. (R414) -/
  | tenantScrubPage (g : Fin 477) (page : Nat) (bad : List (Nat × Bool))
  /-- Command that creates a context with an identifier, world, text key and page-table base. (R389) -/
  | ctxCreate (f : FnId)
  /-- Command that destroys a context, discarding its records, launches, caravans and conversions. (R389) -/
  | ctxDestroy (f : FnId)
  /-- Command that fills a key slot from the random source. (R389) -/
  | keyGen (f : FnId)
  /-- Command that fills a secure key slot from an SPDM secured session's key message. (R389) -/
  | keySet (f : FnId)
  /-- Command that invalidates and zeroes a key slot. (R389) -/
  | keyErase (f : FnId)
  /-- Command that holds a context, stopping its running records with PREEMPT. (R369) -/
  | hold (f : FnId)
  /-- Command that releases a held context. (R389) -/
  | release (f : FnId)
  /-- Command that streams every granule of the function, as ciphertext with a signed trailer, to the given extents. (R417) -/
  | checkpoint (f : FnId)
  /-- Command that writes a checkpoint stream back into the same granules. (R417) -/
  | restore (f : FnId)
  /-- A checkpoint or restore stream finishes its trailer, and STATUS reads success. (R418) -/
  | checkpointComplete (f : FnId)
  /-- Command that loads a supervisor image, setting SVEC, STKEY, STLEN and the supervisor control word table. (R429) -/
  | supLoad (f : FnId)
  /-- Command that sets a context's CAREA. (R389) -/
  | ctxArea (f : FnId)
  /-- A write of an unlisted CMD value is refused at once with reason 0. (R389) -/
  | unknownCommand (f : FnId) (v : W64)
  /-- TDISP request that freezes the function's locked items and enters CONFIG_LOCKED. (R394) -/
  | lockInterfaceRequest (f : FnId)
  /-- TDISP request that moves a locked interface to RUN. (R393) -/
  | startInterfaceRequest (f : FnId)
  /-- TDISP request that ends contexts, zeroes secure keys, scrubs secure granules and unlocks the interface. (R397) -/
  | stopInterfaceRequest (f : FnId)
  /-- TDISP request answered with the interface report of frozen locked items. (R398) -/
  | getDeviceInterfaceReport (f : FnId)
  /-- TDISP request answered with the interface state. (R398) -/
  | getDeviceInterfaceState (f : FnId)
  /-- TDISP request answered with the supported version. (R398) -/
  | getTdispVersion (f : FnId)
  /-- TDISP request answered with the device's capabilities. (R398) -/
  | getTdispCapabilities (f : FnId)
  /-- A device-specific SPDM message over the DOE mailbox returns a held scrub receipt. (R416) -/
  | scrubReceiptRead (f : FnId)
  /-- A configuration-space write, such as a BAR write, is applied at the configuration point and may change a locked item. (R395) -/
  | configSpaceWrite (f : FnId) (r : CfgReg) (v : W64)
  /-- The machine level changes a function's cluster, granule, queue or slot assignment. (R382) -/
  | assignmentChange (a : Assign)
  /-- A write to a queue's binding register sets EN, PRIO, SLOT, ERG and CTX, and clearing EN fails pending records. (R317) -/
  | queueBindingWrite (f : FnId) (q : Fin 64) (v : W64)
  /-- A write of 1 clears a queue's OVF or ERR bit. (R318) -/
  | queueStatusWrite (f : FnId) (q : Fin 64) (v : W64)
  /-- A machine-level write to a model slot register, refused if it breaks the DW or MINBW limits. (R336) -/
  | modelSlotWrite (m : Fin 16) (v : W64)
  /-- A write of 1 clears bits of the function's error-reporting register. (R400) -/
  | errorReportWrite (f : FnId) (v : W64)
  /-- A write sets the memory window's key slot and open bit, discarded while locked. (R428) -/
  | hkeyWrite (f : FnId) (v : W64)
  /-- A write of 1 clears THERM.WARN. (R434) -/
  | thermWrite (f : FnId) (v : W64)
  /-- A write sets a monitor's quantity and selector, and CLR resets its counts. (R419) -/
  | monitorControlWrite (f : FnId) (m : MonId) (v : W64)
  /-- A write to a stack's retirement and error status clears its error counts. (R411) -/
  | stackStatusWrite (f : FnId) (k : Fin 8) (v : W64)
  /-- A write to a window register that has no row of its own. (R426) -/
  | registerWrite (f : FnId) (off : Nat) (v : W64)
  /-- A host read through the memory window of an assigned granule, deciphered with HKEY. (R425) -/
  | hostMemoryRead (f : FnId) (off : Nat) (n : Nat) (trusted : Bool)
  /-- A host write through the memory window, enciphered with HKEY or discarded. (R425) -/
  | hostMemoryWrite (f : FnId) (off : Nat) (d : List Byte) (trusted : Bool)
  /-- A fundamental, hot or link-down reset, after which boot self-tests, verifies firmware, trains memory and starts scrubbing. (R433) -/
  | deviceReset (k : ResetKind)
  /-- A per-function reset unlocks the interface, ends contexts and clears queues and configuration. (R401) -/
  | functionLevelReset (f : FnId)
  /-- A junction sensor reaches TWARN, setting WARN and holding admission. (R434) -/
  | twarnReached (t : BitVec 8)
  /-- A junction reaches TTRIP, sending every interface to ERROR and holding the device in reset. (R434) -/
  | ttripReached (t : BitVec 8)
  /-- The hottest junction sensor falls 5 °C below TWARN, and the dispatcher resumes admitting new caravans. (R434) -/
  | tmaxFallsBelowTwarn (t : BitVec 8)
  /-- A request arrives at the debug or trace port, or as a machine-level debug command, and is served or discarded according to the interface states. (R399) -/
  | debugTraceRequest (p : DebugPort)
  /-- An access arrives from a peer device over the Erg fabric and is performed on this device's memory. (R268) -/
  | ergPeerAccess (dev : Nat) (a : PeerAccess)
  /-- The machine level requests a scrub of a named range, which is carried out as patrol is, ahead of the patrol order. (R408) -/
  | onDemandScrub (unit : Nat) (n : Nat)
  /-- An SPDM request for measurements or identity is answered with a response carrying both the P-384 and the LMS signatures. (R432) -/
  | attestationRequest (f : FnId)
  /-- A key message arrives in an SPDM secured session and supplies the key material that a later KEY_SET takes. (R389) -/
  | spdmKeyMessage (f : FnId) (session : W64) (material : BitVec 512)
  /-- A function's IDE selective stream enters or leaves the secure state, which LOCK_INTERFACE_REQUEST requires. (R394) -/
  | ideStreamStateChange (f : FnId) (secure : Bool)
  deriving DecidableEq, Repr

/-- A slot operation by its class and tag: what the uniform rules of issue speak of (R43, R92, R344). -/
inductive SlotOp where
  | alu (t : AluTag) (o : AluOp)
  | br (t : BrTag) (o : BrOp)
  | mx (o : MxOp)
  | mem (t : MemTag) (o : MemOp)
  | cp (t : CpTag) (o : CpOp)
  | sy (t : SyTag) (o : SyOp)
  deriving DecidableEq, Repr

/-- The step of a slot operation. -/
def SlotOp.toInstr : SlotOp → Instr
  | .alu .add o => .add o
  | .alu .sub o => .sub o
  | .alu .mul o => .mul o
  | .alu .mulh o => .mulh o
  | .alu .min o => .min o
  | .alu .max o => .max o
  | .alu .mov o => .mov o
  | .alu .and o => .and o
  | .alu .or o => .or o
  | .alu .xor o => .xor o
  | .alu .andn o => .andn o
  | .alu .shl o => .shl o
  | .alu .shr o => .shr o
  | .alu .rotl o => .rotl o
  | .alu .sel o => .sel o
  | .alu .fma o => .fma o
  | .alu .fms o => .fms o
  | .alu .div o => .div o
  | .alu .rem o => .rem o
  | .alu .clz o => .clz o
  | .alu .popc o => .popc o
  | .alu .cvt o => .cvt o
  | .alu .cmpEq o => .cmpEq o
  | .alu .cmpNe o => .cmpNe o
  | .alu .cmpLt o => .cmpLt o
  | .alu .cmpLe o => .cmpLe o
  | .alu .cmpPhb o => .cmpPhb o
  | .alu .cmpPho o => .cmpPho o
  | .alu .gand o => .gand o
  | .alu .gor o => .gor o
  | .alu .gxor o => .gxor o
  | .alu .gandn o => .gandn o
  | .alu .gtos o => .gtos o
  | .alu .stog o => .stog o
  | .alu .phmul o => .phmul o
  | .alu .phsub o => .phsub o
  | .alu .jr o => .jr o
  | .alu .callr o => .callr o
  | .alu .ret o => .ret o
  | .alu .mfsw o => .mfsw o
  | .alu .mtsw o => .mtsw o
  | .alu .movMp o => .movMp o
  | .alu .mfmp o => .mfmp o
  | .alu .break o => .break o
  | .alu .syscall o => .syscall o
  | .alu .uiret o => .uiret o
  | .alu .resume o => .resume o
  | .alu .cwtWr o => .cwtWr o
  | .alu .cwtRd o => .cwtRd o
  | .alu .mpsWr o => .mpsWr o
  | .alu .ctxSave o => .ctxSave o
  | .alu .ctxLoad o => .ctxLoad o
  | .alu .bankSave o => .bankSave o
  | .alu .bankLoad o => .bankLoad o
  | .alu .fmaskRd o => .fmaskRd o
  | .alu .fmaskWr o => .fmaskWr o
  | .alu .vadd o => .vadd o
  | .alu .vsub o => .vsub o
  | .alu .vmul o => .vmul o
  | .alu .vmulh o => .vmulh o
  | .alu .vmin o => .vmin o
  | .alu .vmax o => .vmax o
  | .alu .vmov o => .vmov o
  | .alu .vand o => .vand o
  | .alu .vor o => .vor o
  | .alu .vxor o => .vxor o
  | .alu .vandn o => .vandn o
  | .alu .vshl o => .vshl o
  | .alu .vshr o => .vshr o
  | .alu .vsel o => .vsel o
  | .alu .vfma o => .vfma o
  | .alu .vfms o => .vfms o
  | .alu .vclz o => .vclz o
  | .alu .vpopc o => .vpopc o
  | .alu .vcvt o => .vcvt o
  | .alu .vcmpEq o => .vcmpEq o
  | .alu .vcmpNe o => .vcmpNe o
  | .alu .vcmpLt o => .vcmpLt o
  | .alu .vcmpLe o => .vcmpLe o
  | .alu .vcmpUn o => .vcmpUn o
  | .alu .vcmpPhb o => .vcmpPhb o
  | .alu .vcmpPho o => .vcmpPho o
  | .alu .vperm o => .vperm o
  | .alu .vbcast o => .vbcast o
  | .alu .vext o => .vext o
  | .alu .vrow o => .vrow o
  | .alu .vwrow o => .vwrow o
  | .alu .vscacc o => .vscacc o
  | .alu .vredsum o => .vredsum o
  | .alu .vredmax o => .vredmax o
  | .alu .vredmin o => .vredmin o
  | .alu .vrcp o => .vrcp o
  | .alu .vrsqrt o => .vrsqrt o
  | .alu .vsqrt o => .vsqrt o
  | .alu .vexp2 o => .vexp2 o
  | .alu .vlog2 o => .vlog2 o
  | .alu .vsin o => .vsin o
  | .alu .vcos o => .vcos o
  | .alu .vphmul o => .vphmul o
  | .alu .vphsub o => .vphsub o
  | .alu .vphacc o => .vphacc o
  | .alu .vphres o => .vphres o
  | .br .br o => .br o
  | .br .call o => .call o
  | .br .loopBr o => .loopBr o
  | .mx o => .mxCall o
  | .mem .ld o => .ld o
  | .mem .ldAcq o => .ldAcq o
  | .mem .ldTake o => .ldTake o
  | .mem .ldPf o => .ldPf o
  | .mem .st o => .st o
  | .mem .stRel o => .stRel o
  | .mem .stFill o => .stFill o
  | .mem .atFadd o => .atFadd o
  | .mem .redFadd o => .redFadd o
  | .mem .atMinN o => .atMinN o
  | .mem .atMaxN o => .atMaxN o
  | .mem .redMinN o => .redMinN o
  | .mem .redMaxN o => .redMaxN o
  | .mem .atAdd o => .atAdd o
  | .mem .redAdd o => .redAdd o
  | .mem .atMinI o => .atMinI o
  | .mem .atMaxI o => .atMaxI o
  | .mem .redMinI o => .redMinI o
  | .mem .redMaxI o => .redMaxI o
  | .mem .atAnd o => .atAnd o
  | .mem .atOr o => .atOr o
  | .mem .atXor o => .atXor o
  | .mem .redAnd o => .redAnd o
  | .mem .redOr o => .redOr o
  | .mem .redXor o => .redXor o
  | .mem .atSwap o => .atSwap o
  | .mem .atCas o => .atCas o
  | .cp .cpCopy o => .cpCopy o
  | .cp .cpFill o => .cpFill o
  | .cp .cpClose o => .cpClose o
  | .cp .bxTr o => .bxTr o
  | .cp .bxIlv o => .bxIlv o
  | .cp .bxGth o => .bxGth o
  | .cp .bxSct o => .bxSct o
  | .cp .bxBc o => .bxBc o
  | .sy .barInitImm o => .barInitImm o
  | .sy .barInitReg o => .barInitReg o
  | .sy .barExpectImm o => .barExpectImm o
  | .sy .barExpectReg o => .barExpectReg o
  | .sy .barArrive o => .barArrive o
  | .sy .barWait o => .barWait o
  | .sy .barTest o => .barTest o
  | .sy .syFence o => .syFence o
  | .sy .syQjoin o => .syQjoin o
  | .sy .syWaitb o => .syWaitb o
  | .sy .syFrame o => .syFrame o
  | .sy .syPhase o => .syPhase o
  | .sy .sySuspend o => .sySuspend o
  | .sy .sySuspendEv o => .sySuspendEv o
  | .sy .sySuspendFe o => .sySuspendFe o
  | .sy .syYield o => .syYield o
  | .sy .syYieldPark o => .syYieldPark o
  | .sy .sySpawn o => .sySpawn o
  | .sy .syRetire o => .syRetire o
  | .sy .syIreg o => .syIreg o
  | .sy .syIend o => .syIend o
  | .sy .syEvent o => .syEvent o
  | .sy .layout o => .layout o
  | .sy .mpsSwap o => .mpsSwap o

/-- The slot operation of a step, where it is one. -/
def Instr.toSlot : Instr → Option SlotOp
  | .add o => some (.alu .add o)
  | .sub o => some (.alu .sub o)
  | .mul o => some (.alu .mul o)
  | .mulh o => some (.alu .mulh o)
  | .min o => some (.alu .min o)
  | .max o => some (.alu .max o)
  | .mov o => some (.alu .mov o)
  | .and o => some (.alu .and o)
  | .or o => some (.alu .or o)
  | .xor o => some (.alu .xor o)
  | .andn o => some (.alu .andn o)
  | .shl o => some (.alu .shl o)
  | .shr o => some (.alu .shr o)
  | .rotl o => some (.alu .rotl o)
  | .sel o => some (.alu .sel o)
  | .fma o => some (.alu .fma o)
  | .fms o => some (.alu .fms o)
  | .div o => some (.alu .div o)
  | .rem o => some (.alu .rem o)
  | .clz o => some (.alu .clz o)
  | .popc o => some (.alu .popc o)
  | .cvt o => some (.alu .cvt o)
  | .cmpEq o => some (.alu .cmpEq o)
  | .cmpNe o => some (.alu .cmpNe o)
  | .cmpLt o => some (.alu .cmpLt o)
  | .cmpLe o => some (.alu .cmpLe o)
  | .cmpPhb o => some (.alu .cmpPhb o)
  | .cmpPho o => some (.alu .cmpPho o)
  | .gand o => some (.alu .gand o)
  | .gor o => some (.alu .gor o)
  | .gxor o => some (.alu .gxor o)
  | .gandn o => some (.alu .gandn o)
  | .gtos o => some (.alu .gtos o)
  | .stog o => some (.alu .stog o)
  | .phmul o => some (.alu .phmul o)
  | .phsub o => some (.alu .phsub o)
  | .jr o => some (.alu .jr o)
  | .callr o => some (.alu .callr o)
  | .ret o => some (.alu .ret o)
  | .mfsw o => some (.alu .mfsw o)
  | .mtsw o => some (.alu .mtsw o)
  | .movMp o => some (.alu .movMp o)
  | .mfmp o => some (.alu .mfmp o)
  | .break o => some (.alu .break o)
  | .syscall o => some (.alu .syscall o)
  | .uiret o => some (.alu .uiret o)
  | .resume o => some (.alu .resume o)
  | .cwtWr o => some (.alu .cwtWr o)
  | .cwtRd o => some (.alu .cwtRd o)
  | .mpsWr o => some (.alu .mpsWr o)
  | .ctxSave o => some (.alu .ctxSave o)
  | .ctxLoad o => some (.alu .ctxLoad o)
  | .bankSave o => some (.alu .bankSave o)
  | .bankLoad o => some (.alu .bankLoad o)
  | .fmaskRd o => some (.alu .fmaskRd o)
  | .fmaskWr o => some (.alu .fmaskWr o)
  | .vadd o => some (.alu .vadd o)
  | .vsub o => some (.alu .vsub o)
  | .vmul o => some (.alu .vmul o)
  | .vmulh o => some (.alu .vmulh o)
  | .vmin o => some (.alu .vmin o)
  | .vmax o => some (.alu .vmax o)
  | .vmov o => some (.alu .vmov o)
  | .vand o => some (.alu .vand o)
  | .vor o => some (.alu .vor o)
  | .vxor o => some (.alu .vxor o)
  | .vandn o => some (.alu .vandn o)
  | .vshl o => some (.alu .vshl o)
  | .vshr o => some (.alu .vshr o)
  | .vsel o => some (.alu .vsel o)
  | .vfma o => some (.alu .vfma o)
  | .vfms o => some (.alu .vfms o)
  | .vclz o => some (.alu .vclz o)
  | .vpopc o => some (.alu .vpopc o)
  | .vcvt o => some (.alu .vcvt o)
  | .vcmpEq o => some (.alu .vcmpEq o)
  | .vcmpNe o => some (.alu .vcmpNe o)
  | .vcmpLt o => some (.alu .vcmpLt o)
  | .vcmpLe o => some (.alu .vcmpLe o)
  | .vcmpUn o => some (.alu .vcmpUn o)
  | .vcmpPhb o => some (.alu .vcmpPhb o)
  | .vcmpPho o => some (.alu .vcmpPho o)
  | .vperm o => some (.alu .vperm o)
  | .vbcast o => some (.alu .vbcast o)
  | .vext o => some (.alu .vext o)
  | .vrow o => some (.alu .vrow o)
  | .vwrow o => some (.alu .vwrow o)
  | .vscacc o => some (.alu .vscacc o)
  | .vredsum o => some (.alu .vredsum o)
  | .vredmax o => some (.alu .vredmax o)
  | .vredmin o => some (.alu .vredmin o)
  | .vrcp o => some (.alu .vrcp o)
  | .vrsqrt o => some (.alu .vrsqrt o)
  | .vsqrt o => some (.alu .vsqrt o)
  | .vexp2 o => some (.alu .vexp2 o)
  | .vlog2 o => some (.alu .vlog2 o)
  | .vsin o => some (.alu .vsin o)
  | .vcos o => some (.alu .vcos o)
  | .vphmul o => some (.alu .vphmul o)
  | .vphsub o => some (.alu .vphsub o)
  | .vphacc o => some (.alu .vphacc o)
  | .vphres o => some (.alu .vphres o)
  | .br o => some (.br .br o)
  | .call o => some (.br .call o)
  | .loopBr o => some (.br .loopBr o)
  | .ld o => some (.mem .ld o)
  | .ldAcq o => some (.mem .ldAcq o)
  | .ldTake o => some (.mem .ldTake o)
  | .ldPf o => some (.mem .ldPf o)
  | .st o => some (.mem .st o)
  | .stRel o => some (.mem .stRel o)
  | .stFill o => some (.mem .stFill o)
  | .atFadd o => some (.mem .atFadd o)
  | .redFadd o => some (.mem .redFadd o)
  | .atMinN o => some (.mem .atMinN o)
  | .atMaxN o => some (.mem .atMaxN o)
  | .redMinN o => some (.mem .redMinN o)
  | .redMaxN o => some (.mem .redMaxN o)
  | .atAdd o => some (.mem .atAdd o)
  | .redAdd o => some (.mem .redAdd o)
  | .atMinI o => some (.mem .atMinI o)
  | .atMaxI o => some (.mem .atMaxI o)
  | .redMinI o => some (.mem .redMinI o)
  | .redMaxI o => some (.mem .redMaxI o)
  | .atAnd o => some (.mem .atAnd o)
  | .atOr o => some (.mem .atOr o)
  | .atXor o => some (.mem .atXor o)
  | .redAnd o => some (.mem .redAnd o)
  | .redOr o => some (.mem .redOr o)
  | .redXor o => some (.mem .redXor o)
  | .atSwap o => some (.mem .atSwap o)
  | .atCas o => some (.mem .atCas o)
  | .cpCopy o => some (.cp .cpCopy o)
  | .cpFill o => some (.cp .cpFill o)
  | .cpClose o => some (.cp .cpClose o)
  | .bxTr o => some (.cp .bxTr o)
  | .bxIlv o => some (.cp .bxIlv o)
  | .bxGth o => some (.cp .bxGth o)
  | .bxSct o => some (.cp .bxSct o)
  | .bxBc o => some (.cp .bxBc o)
  | .barInitImm o => some (.sy .barInitImm o)
  | .barInitReg o => some (.sy .barInitReg o)
  | .barExpectImm o => some (.sy .barExpectImm o)
  | .barExpectReg o => some (.sy .barExpectReg o)
  | .barArrive o => some (.sy .barArrive o)
  | .barWait o => some (.sy .barWait o)
  | .barTest o => some (.sy .barTest o)
  | .syFence o => some (.sy .syFence o)
  | .syQjoin o => some (.sy .syQjoin o)
  | .syWaitb o => some (.sy .syWaitb o)
  | .syFrame o => some (.sy .syFrame o)
  | .syPhase o => some (.sy .syPhase o)
  | .sySuspend o => some (.sy .sySuspend o)
  | .sySuspendEv o => some (.sy .sySuspendEv o)
  | .sySuspendFe o => some (.sy .sySuspendFe o)
  | .syYield o => some (.sy .syYield o)
  | .syYieldPark o => some (.sy .syYieldPark o)
  | .sySpawn o => some (.sy .sySpawn o)
  | .syRetire o => some (.sy .syRetire o)
  | .syIreg o => some (.sy .syIreg o)
  | .syIend o => some (.sy .syIend o)
  | .syEvent o => some (.sy .syEvent o)
  | .layout o => some (.sy .layout o)
  | .mpsSwap o => some (.sy .mpsSwap o)
  | .mxCall o => some (.mx o)
  | _ => none

end Sys2Proof
end

