-- ==== Sys2Proof/WellFormed.lean ====
section
/-! DEFINITION. Which decoded operations the spec's encodings admit: the operation map (R77) as a table, and the rules
whose breach traps ENCODING or WIDTH by an operation's fields alone (R40, R67, R71 to R74, R81 to R88, R93, R118, R119,
R147). Rules that need the machine's state are in Machine/Issue.lean. -/

namespace Sys2Proof

/-- The kind of an operand (R77). -/
inductive OpKind where
  | none | s | v | g | bank | mp
  deriving DecidableEq, Repr

/-- The formats an operand may take (R77). `zero`: it carries none. -/
inductive FmtClass where
  | zero | int | num | flt | ph | intPh | any | f32 | phc32 | bankF | bankD
  deriving DecidableEq, Repr

/-- One row of the operation map: CORE, whether it is a vector mnemonic, the kinds of D, A, B and C, the formats of D, A,
B and C, whether IMM12 is read directly, whether the row marks clamp, reduce and SAT, the level it needs (0 user, 1
supervisor, 2 machine) and its own feature. -/
structure AluRow where
  core : Nat
  vec  : Bool
  dk : OpKind
  ak : OpKind
  bk : OpKind
  ck : OpKind
  fd : FmtClass
  fa : FmtClass
  fb : FmtClass
  fc : FmtClass
  imm : Bool
  clamp : Bool
  reduce : Bool
  sat : Bool
  level : Nat
  feature : Option Nat
  deriving DecidableEq, Repr

/-- The operation map (R77), with the marks of R121, R150 and the rows of chapter 06. -/
def AluTag.row : AluTag → AluRow
  | .add => ⟨0x01, false, .s, .s, .s, .none, .int, .int, .int, .zero, false, false, false, true, 0, none⟩
  | .sub => ⟨0x02, false, .s, .s, .s, .none, .int, .int, .int, .zero, false, false, false, true, 0, none⟩
  | .mul => ⟨0x03, false, .s, .s, .s, .none, .int, .int, .int, .zero, false, false, false, true, 0, none⟩
  | .mulh => ⟨0x04, false, .s, .s, .s, .none, .int, .int, .int, .zero, false, false, false, false, 0, none⟩
  | .min => ⟨0x05, false, .s, .s, .s, .none, .int, .int, .int, .zero, false, false, false, false, 0, none⟩
  | .max => ⟨0x06, false, .s, .s, .s, .none, .int, .int, .int, .zero, false, false, false, false, 0, none⟩
  | .mov => ⟨0x07, false, .s, .s, .none, .none, .int, .int, .zero, .zero, false, false, false, true, 0, none⟩
  | .and => ⟨0x08, false, .s, .s, .s, .none, .int, .int, .int, .zero, false, false, false, false, 0, none⟩
  | .or => ⟨0x09, false, .s, .s, .s, .none, .int, .int, .int, .zero, false, false, false, false, 0, none⟩
  | .xor => ⟨0x0a, false, .s, .s, .s, .none, .int, .int, .int, .zero, false, false, false, false, 0, none⟩
  | .andn => ⟨0x0b, false, .s, .s, .s, .none, .int, .int, .int, .zero, false, false, false, false, 0, none⟩
  | .shl => ⟨0x0c, false, .s, .s, .s, .none, .int, .int, .int, .zero, false, false, false, true, 0, none⟩
  | .shr => ⟨0x0d, false, .s, .s, .s, .none, .int, .int, .int, .zero, false, false, false, false, 0, none⟩
  | .rotl => ⟨0x0e, false, .s, .s, .s, .none, .int, .int, .int, .zero, false, false, false, false, 0, none⟩
  | .sel => ⟨0x0f, false, .s, .s, .s, .g, .int, .int, .int, .zero, false, false, false, false, 0, none⟩
  | .fma => ⟨0x10, false, .s, .s, .s, .s, .int, .int, .int, .int, false, false, false, true, 0, none⟩
  | .fms => ⟨0x11, false, .s, .s, .s, .s, .int, .int, .int, .int, false, false, false, true, 0, none⟩
  | .div => ⟨0x12, false, .s, .s, .s, .none, .int, .int, .int, .zero, false, false, false, true, 0, none⟩
  | .rem => ⟨0x13, false, .s, .s, .s, .none, .int, .int, .int, .zero, false, false, false, true, 0, none⟩
  | .clz => ⟨0x14, false, .s, .s, .none, .none, .int, .int, .zero, .zero, false, false, false, false, 0, none⟩
  | .popc => ⟨0x15, false, .s, .s, .none, .none, .int, .int, .zero, .zero, false, false, false, false, 0, none⟩
  | .cvt => ⟨0x16, false, .s, .s, .none, .none, .intPh, .intPh, .zero, .zero, false, false, false, true, 0, none⟩
  | .cmpEq => ⟨0x20, false, .g, .s, .s, .none, .zero, .int, .int, .zero, false, false, false, false, 0, none⟩
  | .cmpNe => ⟨0x21, false, .g, .s, .s, .none, .zero, .int, .int, .zero, false, false, false, false, 0, none⟩
  | .cmpLt => ⟨0x22, false, .g, .s, .s, .none, .zero, .int, .int, .zero, false, false, false, false, 0, none⟩
  | .cmpLe => ⟨0x23, false, .g, .s, .s, .none, .zero, .int, .int, .zero, false, false, false, false, 0, none⟩
  | .cmpPhb => ⟨0x25, false, .g, .s, .s, .none, .zero, .ph, .ph, .zero, false, false, false, false, 0, (some 0)⟩
  | .cmpPho => ⟨0x26, false, .g, .s, .s, .none, .zero, .ph, .ph, .zero, false, false, false, false, 0, (some 0)⟩
  | .gand => ⟨0x28, false, .g, .g, .g, .none, .zero, .zero, .zero, .zero, false, false, false, false, 0, none⟩
  | .gor => ⟨0x29, false, .g, .g, .g, .none, .zero, .zero, .zero, .zero, false, false, false, false, 0, none⟩
  | .gxor => ⟨0x2a, false, .g, .g, .g, .none, .zero, .zero, .zero, .zero, false, false, false, false, 0, none⟩
  | .gandn => ⟨0x2b, false, .g, .g, .g, .none, .zero, .zero, .zero, .zero, false, false, false, false, 0, none⟩
  | .gtos => ⟨0x2c, false, .s, .g, .none, .none, .zero, .zero, .zero, .zero, true, false, false, false, 0, none⟩
  | .stog => ⟨0x2d, false, .g, .s, .none, .none, .zero, .zero, .zero, .zero, true, false, false, false, 0, none⟩
  | .phmul => ⟨0x40, false, .s, .s, .s, .none, .ph, .ph, .ph, .zero, false, false, false, false, 0, (some 0)⟩
  | .phsub => ⟨0x41, false, .s, .s, .s, .none, .ph, .ph, .ph, .zero, false, false, false, false, 0, (some 0)⟩
  | .jr => ⟨0x81, false, .none, .s, .none, .none, .zero, .zero, .zero, .zero, false, false, false, false, 0, none⟩
  | .callr => ⟨0x83, false, .none, .s, .none, .none, .zero, .zero, .zero, .zero, false, false, false, false, 0, none⟩
  | .ret => ⟨0x84, false, .none, .none, .none, .none, .zero, .zero, .zero, .zero, false, false, false, false, 0, none⟩
  | .mfsw => ⟨0x86, false, .s, .none, .none, .none, .zero, .zero, .zero, .zero, true, false, false, false, 0, none⟩
  | .mtsw => ⟨0x87, false, .none, .s, .none, .none, .zero, .zero, .zero, .zero, true, false, false, false, 0, none⟩
  | .movMp => ⟨0x88, false, .mp, .s, .none, .none, .zero, .zero, .zero, .zero, false, false, false, false, 0, none⟩
  | .mfmp => ⟨0x89, false, .s, .none, .none, .none, .zero, .zero, .zero, .zero, true, false, false, false, 0, none⟩
  | .break => ⟨0x8a, false, .none, .none, .none, .none, .zero, .zero, .zero, .zero, true, false, false, false, 0, none⟩
  | .syscall => ⟨0x8b, false, .none, .none, .none, .none, .zero, .zero, .zero, .zero, true, false, false, false, 0, none⟩
  | .uiret => ⟨0x8c, false, .none, .none, .none, .none, .zero, .zero, .zero, .zero, false, false, false, false, 0, (some 4)⟩
  | .resume => ⟨0xa0, false, .none, .s, .s, .none, .zero, .zero, .zero, .zero, false, false, false, false, 1, none⟩
  | .cwtWr => ⟨0xa1, false, .none, .s, .s, .none, .zero, .zero, .zero, .zero, false, false, false, false, 1, none⟩
  | .cwtRd => ⟨0xa2, false, .none, .s, .s, .none, .zero, .zero, .zero, .zero, false, false, false, false, 1, none⟩
  | .mpsWr => ⟨0xa3, false, .none, .s, .s, .none, .zero, .zero, .zero, .zero, false, false, false, false, 1, none⟩
  | .ctxSave => ⟨0xa4, false, .none, .s, .none, .none, .zero, .zero, .zero, .zero, false, false, false, false, 1, none⟩
  | .ctxLoad => ⟨0xa5, false, .none, .s, .none, .none, .zero, .zero, .zero, .zero, false, false, false, false, 1, none⟩
  | .bankSave => ⟨0xa6, false, .none, .s, .s, .none, .zero, .zero, .zero, .zero, false, false, false, false, 1, none⟩
  | .bankLoad => ⟨0xa7, false, .none, .s, .s, .none, .zero, .zero, .zero, .zero, false, false, false, false, 1, none⟩
  | .fmaskRd => ⟨0xa8, false, .s, .none, .none, .none, .zero, .zero, .zero, .zero, false, false, false, false, 1, none⟩
  | .fmaskWr => ⟨0xb0, false, .none, .s, .s, .none, .zero, .zero, .zero, .zero, false, false, false, false, 2, none⟩
  | .vadd => ⟨0x01, true, .v, .v, .v, .none, .num, .num, .num, .zero, false, true, true, true, 0, none⟩
  | .vsub => ⟨0x02, true, .v, .v, .v, .none, .num, .num, .num, .zero, false, true, true, true, 0, none⟩
  | .vmul => ⟨0x03, true, .v, .v, .v, .none, .num, .num, .num, .zero, false, true, true, true, 0, none⟩
  | .vmulh => ⟨0x04, true, .v, .v, .v, .none, .int, .int, .int, .zero, false, true, true, false, 0, none⟩
  | .vmin => ⟨0x05, true, .v, .v, .v, .none, .num, .num, .num, .zero, false, true, true, false, 0, none⟩
  | .vmax => ⟨0x06, true, .v, .v, .v, .none, .num, .num, .num, .zero, false, true, true, false, 0, none⟩
  | .vmov => ⟨0x07, true, .v, .v, .none, .none, .any, .any, .zero, .zero, false, false, false, false, 0, none⟩
  | .vand => ⟨0x08, true, .v, .v, .v, .none, .int, .int, .int, .zero, false, false, true, false, 0, none⟩
  | .vor => ⟨0x09, true, .v, .v, .v, .none, .int, .int, .int, .zero, false, false, true, false, 0, none⟩
  | .vxor => ⟨0x0a, true, .v, .v, .v, .none, .int, .int, .int, .zero, false, false, true, false, 0, none⟩
  | .vandn => ⟨0x0b, true, .v, .v, .v, .none, .int, .int, .int, .zero, false, false, true, false, 0, none⟩
  | .vshl => ⟨0x0c, true, .v, .v, .v, .none, .int, .int, .int, .zero, false, true, true, true, 0, none⟩
  | .vshr => ⟨0x0d, true, .v, .v, .v, .none, .int, .int, .int, .zero, false, true, true, false, 0, none⟩
  | .vsel => ⟨0x0f, true, .v, .v, .v, .g, .any, .any, .any, .zero, false, false, false, false, 0, none⟩
  | .vfma => ⟨0x10, true, .v, .v, .v, .v, .num, .num, .num, .num, false, true, true, true, 0, none⟩
  | .vfms => ⟨0x11, true, .v, .v, .v, .v, .num, .num, .num, .num, false, true, true, true, 0, none⟩
  | .vclz => ⟨0x14, true, .v, .v, .none, .none, .int, .int, .zero, .zero, false, false, true, false, 0, none⟩
  | .vpopc => ⟨0x15, true, .v, .v, .none, .none, .int, .int, .zero, .zero, false, false, true, false, 0, none⟩
  | .vcvt => ⟨0x16, true, .v, .v, .none, .none, .any, .any, .zero, .zero, false, true, false, true, 0, none⟩
  | .vcmpEq => ⟨0x20, true, .g, .v, .v, .none, .zero, .num, .num, .zero, false, false, false, false, 0, none⟩
  | .vcmpNe => ⟨0x21, true, .g, .v, .v, .none, .zero, .num, .num, .zero, false, false, false, false, 0, none⟩
  | .vcmpLt => ⟨0x22, true, .g, .v, .v, .none, .zero, .num, .num, .zero, false, false, false, false, 0, none⟩
  | .vcmpLe => ⟨0x23, true, .g, .v, .v, .none, .zero, .num, .num, .zero, false, false, false, false, 0, none⟩
  | .vcmpUn => ⟨0x24, true, .g, .v, .v, .none, .zero, .flt, .flt, .zero, false, false, false, false, 0, none⟩
  | .vcmpPhb => ⟨0x25, true, .g, .v, .v, .none, .zero, .ph, .ph, .zero, false, false, false, false, 0, (some 0)⟩
  | .vcmpPho => ⟨0x26, true, .g, .v, .v, .none, .zero, .ph, .ph, .zero, false, false, false, false, 0, (some 0)⟩
  | .vperm => ⟨0x30, true, .v, .v, .none, .none, .any, .any, .zero, .zero, false, false, false, false, 0, none⟩
  | .vbcast => ⟨0x31, true, .v, .s, .none, .none, .any, .any, .zero, .zero, false, true, false, true, 0, none⟩
  | .vext => ⟨0x32, true, .s, .v, .s, .none, .any, .any, .zero, .zero, false, false, false, false, 0, none⟩
  | .vrow => ⟨0x33, true, .v, .bank, .s, .none, .bankD, .bankF, .zero, .zero, false, false, false, false, 0, none⟩
  | .vwrow => ⟨0x34, true, .bank, .s, .v, .none, .bankF, .zero, .bankD, .zero, false, false, false, false, 0, none⟩
  | .vscacc => ⟨0x35, true, .v, .v, .v, .v, .f32, .f32, .f32, .f32, false, false, false, true, 0, none⟩
  | .vredsum => ⟨0x36, true, .v, .v, .none, .none, .num, .num, .zero, .zero, false, false, false, true, 0, none⟩
  | .vredmax => ⟨0x37, true, .v, .v, .none, .none, .num, .num, .zero, .zero, false, false, false, true, 0, none⟩
  | .vredmin => ⟨0x38, true, .v, .v, .none, .none, .num, .num, .zero, .zero, false, false, false, true, 0, none⟩
  | .vrcp => ⟨0x39, true, .v, .v, .none, .none, .f32, .f32, .zero, .zero, false, false, false, true, 0, (some 3)⟩
  | .vrsqrt => ⟨0x3a, true, .v, .v, .none, .none, .f32, .f32, .zero, .zero, false, false, false, true, 0, (some 3)⟩
  | .vsqrt => ⟨0x3b, true, .v, .v, .none, .none, .f32, .f32, .zero, .zero, false, false, false, true, 0, (some 3)⟩
  | .vexp2 => ⟨0x3c, true, .v, .v, .none, .none, .f32, .f32, .zero, .zero, false, false, false, true, 0, (some 3)⟩
  | .vlog2 => ⟨0x3d, true, .v, .v, .none, .none, .f32, .f32, .zero, .zero, false, false, false, true, 0, (some 3)⟩
  | .vsin => ⟨0x3e, true, .v, .v, .none, .none, .f32, .f32, .zero, .zero, false, false, false, true, 0, (some 3)⟩
  | .vcos => ⟨0x3f, true, .v, .v, .none, .none, .f32, .f32, .zero, .zero, false, false, false, true, 0, (some 3)⟩
  | .vphmul => ⟨0x40, true, .v, .v, .v, .none, .ph, .ph, .ph, .zero, false, false, false, false, 0, (some 0)⟩
  | .vphsub => ⟨0x41, true, .v, .v, .v, .none, .ph, .ph, .ph, .zero, false, false, false, false, 0, (some 0)⟩
  | .vphacc => ⟨0x42, true, .v, .v, .none, .none, .zero, .ph, .zero, .zero, false, false, false, false, 0, (some 0)⟩
  | .vphres => ⟨0x43, true, .v, .v, .none, .none, .phc32, .zero, .zero, .zero, false, false, false, false, 0, (some 0)⟩

/-- The element width of a format (R94); 0 for none. -/
def Fmt.width : Fmt → Nat
  | .none => 0
  | .i8 | .n8 | .e4m3 | .ph8 => 8
  | .i16 | .n16 | .f16 | .bf16 | .ph16 => 16
  | .i32 | .n32 | .f32 | .phc32 => 32
  | .i64 | .n64 => 64

/-- The i formats (R95). -/
def Fmt.isI : Fmt → Bool
  | .i8 | .i16 | .i32 | .i64 => true
  | _ => false
/-- The n formats (R95). -/
def Fmt.isN : Fmt → Bool
  | .n8 | .n16 | .n32 | .n64 => true
  | _ => false
/-- The integer formats. -/
def Fmt.isInt (f : Fmt) : Bool := f.isI || f.isN
/-- The floating formats (R96). -/
def Fmt.isFlt : Fmt → Bool
  | .e4m3 | .bf16 | .f16 | .f32 => true
  | _ => false
/-- The formats "num" of R77. -/
def Fmt.isNum (f : Fmt) : Bool := f.isInt || f.isFlt
/-- The formats "ph" of R77. -/
def Fmt.isPh : Fmt → Bool
  | .ph8 | .ph16 => true
  | _ => false
/-- Every phasor format (R109 to R111). -/
def Fmt.isPhasor (f : Fmt) : Bool := f.isPh || f == .phc32

/-- Whether a format is of a class. -/
def FmtClass.allows : FmtClass → Fmt → Bool
  | .zero, f => f == .none
  | .int, f => f.isInt
  | .num, f => f.isNum
  | .flt, f => f.isFlt
  | .ph, f => f.isPh
  | .intPh, f => f.isInt || f.isPh
  | .any, f => f != .none
  | .f32, f => f == .f32
  | .phc32, f => f == .phc32
  | .bankF, f => f == .f32 || f == .i32
  | .bankD, f => f == .f32 || f == .i32 || f == .bf16

/-- The width in bits of a vector slot's W code; a reserved code is refused elsewhere (R16). -/
def vecBits (w : BitVec 2) : Nat :=
  if w = 0 then 256 else if w = 1 then 512 else 1024

/-- A PRE byte with no bit set. -/
def Pre.isZero (p : Pre) : Bool := !p.neg && !p.abs && !p.ext && !p.bc && p.el == 0

/-- The pre byte with no bit set. -/
def Pre.zero : Pre := ⟨false, false, false, false, 0⟩

/-- A source that names a register or, read as one (R143), a bypass latch. -/
def Src.isReg : Src → Bool
  | .reg _ | .latch _ => true
  | _ => false

/-- A source field that suits an operand kind: guard and bank numbers 0..15 (R67, R124, R152), an unused field 0x40. -/
def OpKind.srcOk : OpKind → Src → Bool
  | .none, x => x == .zero
  | .g, .reg n | .bank, .reg n => decide (n.toNat < 16)
  | .g, _ | .bank, _ => false
  | _, _ => true

/-- A destination number that suits an operand kind (R67). -/
def OpKind.destOk (k : OpKind) (d : BitVec 6) (nowb : Bool) : Bool :=
  match k with
  | .none => d == 0 && !nowb
  | .g | .bank => decide (d.toNat < 16)
  | .mp => decide (d.toNat < 8)
  | _ => true

/-- The largest element width among the vector operands of an operation (R143). -/
def AluOp.wE (t : AluTag) (o : AluOp) : Nat :=
  let use := fun (k : OpKind) (f : Fmt) => if k == .v || k == .bank then f.width else 0
  max (max (use t.row.dk o.cw.fd) (use t.row.ak o.cw.fa)) (max (use t.row.bk o.cw.fb) (use t.row.ck o.cw.fc))

/-- The stride in bits at which element j of an operand is read (R143). -/
def eltStride (wE wX : Nat) (ext : Bool) : Nat := if wX = wE || ext then wX else wE

/-- The rule of one PRE byte on an operand of the vector slots (R73, R144, R147). DESIGN CHOICE: on operand A of vphres, whose FA is 0, the
spec neither lists EXT and BC as traps nor gives them an effect; they pass and change nothing (log 113). -/
def preVecOk (wE : Nat) (k : OpKind) (x : Src) (f : Fmt) (p : Pre) : Bool :=
  p.isZero ||
  (k == .v && x.isReg && (!(p.neg || p.abs) || f.isI || f.isFlt) && (p.bc || p.el == 0)
    && (!p.ext || f.width != wE)
    && (!p.bc || decide (eltStride wE f.width p.ext * p.el.toNat + f.width ≤ 128)))

/-- The rule of one PRE byte on an operand of the S slot (R73, R118). -/
def preScalarOk (k : OpKind) (x : Src) (f : Fmt) (p : Pre) : Bool :=
  p.isZero || (k == .s && x.isReg && !p.ext && !p.bc && p.el == 0 && f.isI)

/-- Operations no operand of which takes a modifier (R147). DEDUCED (log 91): vmov is one of them, BC included, though
R150 speaks of bits that BC moves; R147 lists the trap by name. -/
def AluTag.noPre : AluTag → Bool
  | .vperm | .vext | .vmov => true
  | _ => false

/-- The PRE bytes of an operation. A latch counts as a register (log 15). -/
def AluOp.preOk (t : AluTag) (o : AluOp) : Bool :=
  let r := t.row
  if r.vec then
    if t.noPre then o.cw.prea.isZero && o.cw.preb.isZero && o.cw.prec.isZero
    else if t == .vbcast then
      (o.cw.prea.isZero || (o.a.isReg && o.cw.prea.bc && !o.cw.prea.neg && !o.cw.prea.abs && !o.cw.prea.ext
        && decide (o.cw.fa.width * (o.cw.prea.el.toNat + 1) ≤ 64)))
      && o.cw.preb.isZero && o.cw.prec.isZero
    else
      preVecOk (o.wE t) r.ak o.a o.cw.fa o.cw.prea
      && (if t == .vscacc then o.cw.preb.isZero else preVecOk (o.wE t) r.bk o.b o.cw.fb o.cw.preb)
      && preVecOk (o.wE t) r.ck o.c o.cw.fc o.cw.prec
  else preScalarOk r.ak o.a o.cw.fa o.cw.prea && preScalarOk r.bk o.b o.cw.fb o.cw.preb
    && preScalarOk r.ck o.c o.cw.fc o.cw.prec

/-- POST codes 011 to 101. -/
def Post.isReduce : Post → Bool
  | .rsum | .rmax | .rmin => true
  | _ => false

/-- Vector operations under R147's rule on POST and a change of format; the compared source format is FA, or FB for
vwrow. -/
def AluTag.convRule : AluTag → Bool
  | .vadd | .vsub | .vmul | .vmulh | .vmin | .vmax | .vand | .vor | .vxor | .vandn | .vshl | .vshr | .vfma | .vfms
  | .vclz | .vpopc | .vbcast | .vredsum | .vredmax | .vredmin | .vphmul | .vphsub | .vwrow => true
  | _ => false

/-- POST and SAT of an operation (R74, R118, R147; log 16 for the S slot). -/
def AluOp.postOk (t : AluTag) (o : AluOp) : Bool :=
  let r := t.row
  let src := if t == .vwrow then o.cw.fb else o.cw.fa
  let satOk := o.cw.sat == .none || r.sat
  if r.vec then
    satOk &&
    (if t.convRule then
      (match o.cw.post with
       | .none => o.cw.fd == src
       | .conv => o.cw.fd != src
       | .clamp => r.clamp && (t != .vbcast || (o.cw.fa.isNum && o.cw.fd.isNum))
       | _ => r.reduce && o.cw.fd == src)
     else if t == .vcvt then o.cw.post == .none || (o.cw.post == .clamp && o.cw.fa.isNum && o.cw.fd.isNum)
     else if t == .vrow then (if o.cw.fd == o.cw.fa then o.cw.post == .none else o.cw.post == .conv)
     else o.cw.post == .none)
  else if r.core ≥ 0x80 then o.cw.post == .none && o.cw.sat == .none
  else satOk && !o.cw.post.isReduce && (!(o.cw.fd.isPhasor || o.cw.fa.isPhasor) || o.cw.sat == .none)

/-- Format pairs that an operation's own row asks for (R121, R125, R147 to R161). -/
def AluOp.pairOk (t : AluTag) (o : AluOp) : Bool :=
  let fa := o.cw.fa; let fb := o.cw.fb; let fd := o.cw.fd
  match t with
  | .rotl | .vmov | .vperm | .vext => fd == fa
  | .vsel => fa == fb && fd == fa
  | .cvt => (fa.isInt && fd.isInt) || (fa.isPh && fd.isPh && fa != fd)
  | .vcvt => (fa.isNum && fd.isNum) || (fa == .ph8 && fd == .ph16) || (fa == .ph16 && fd == .ph8)
      || (fa == .phc32 && fd == .ph16)
  | .vbcast => (fa.isNum && fd.isNum) || (fa.isPhasor && fa == fd)
  | .vrow => fd == fa || (fa == .f32 && fd == .bf16)
  | .vwrow => fd == fb || (fd == .f32 && fb == .bf16)
  | _ => true

/-- Status words that exist (R127, R346). -/
def swListed (n : Nat) : Bool :=
  decide (n ≤ 0x016) || (decide (0x020 ≤ n) && decide (n ≤ 0x027)) || (decide (0x040 ≤ n) && decide (n ≤ 0x05F))

/-- Status words that no level may write: WSRC, ctxid and the PEB words (R126, R127). -/
def swReadOnly (n : Nat) : Bool := n == 0x00D || n == 0x013 || (decide (0x020 ≤ n) && decide (n ≤ 0x027))

/-- What an operation asks of IMM12 (R67, R124, R126, R130, R135). -/
def AluOp.immOk (t : AluTag) (o : AluOp) : Bool :=
  let r := t.row
  match t with
  | .gtos | .stog => decide (o.imm.toNat < 2)
  | .mfmp => decide (o.imm.toNat < 8)
  | .mfsw => swListed o.imm.toNat
  | .mtsw => swListed o.imm.toNat && !swReadOnly o.imm.toNat && o.a != .imm
  | _ => r.imm || o.imm == 0 || o.a == .imm || o.b == .imm || o.c == .imm

/-- The slot mask of the control word allows the slot (R71). -/
def AluOp.maskOk (t : AluTag) (o : AluOp) : Bool :=
  match o.unit with
  | .s => !t.row.vec && o.msk == 1
  | .va => t.row.vec && !o.msk.getLsbD 0 && o.msk.getLsbD 1
  | .vb => t.row.vec && !o.msk.getLsbD 0 && o.msk.getLsbD 2

/-- Entries of PERM (R74, R154). -/
def AluOp.permOk (t : AluTag) (o : AluOp) : Bool :=
  if t == .vperm then decide (o.cw.perm.toNat < 16 ^ (vecBits o.w / 64)) else o.cw.perm == 0

/-- Everything that traps ENCODING in an operation of the common layout, apart from what the machine's state decides. -/
def AluOp.encOk (t : AluTag) (o : AluOp) : Bool :=
  let r := t.row
  o.maskOk t && r.ak.srcOk o.a && r.bk.srcOk o.b && r.ck.srcOk o.c && r.dk.destOk o.d o.nowb
  && r.fa.allows o.cw.fa && r.fb.allows o.cw.fb && r.fc.allows o.cw.fc && r.fd.allows o.cw.fd
  && o.preOk t && o.postOk t && o.pairOk t && o.immOk t && o.permOk t
  && (r.vec || r.dk == .s || o.w == 0)

/-- A reserved W code (R15, R16, R40). -/
def AluOp.widthOk (o : AluOp) : Bool :=
  match o.unit with
  | .s => decide (o.w.toNat < 2)
  | _ => decide (o.w.toNat < 3)

/-- A well-formed operation of the common layout. -/
def AluOp.wf (t : AluTag) (o : AluOp) : Bool := o.encOk t && o.widthOk

/-- Branch form: no destination, so W is 00 and IMM12 is zero (R67, R68, R119). -/
def BrOp.wf (o : BrOp) : Bool := o.w == 0 && o.imm == 0

/-- The M slot (R81): load-only mode has no bank and no accumulate bit. -/
def MxOp.wf (o : MxOp) : Bool := o.lm != .loadOnly || (o.rbk == 0 && !o.acc)

/-- LD-slot operations. -/
def MemTag.isLd : MemTag → Bool
  | .ld | .ldAcq | .ldTake | .ldPf => true
  | _ => false
/-- st, st.rel and st.fill. -/
def MemTag.isSt : MemTag → Bool
  | .st | .stRel | .stFill => true
  | _ => false
/-- The at forms (R84). -/
def MemTag.isAt : MemTag → Bool
  | .atFadd | .atMinN | .atMaxN | .atAdd | .atMinI | .atMaxI | .atAnd | .atOr | .atXor | .atSwap | .atCas => true
  | _ => false
/-- The red forms (R84). -/
def MemTag.isRed (t : MemTag) : Bool := !t.isLd && !t.isSt && !t.isAt

/-- The spaces an operation allows. The weight store is a legal encoding of every ST-slot operation and traps
PROTECTION at issue (R84, R85). -/
def MemTag.spaceOk (t : MemTag) (s : Space) : Bool :=
  match t with
  | .ld => true
  | .ldAcq => s == .glob || s == .clu
  | .ldTake => s == .loc || s == .clu
  | .ldPf => s == .glob
  | .st => true
  | .stRel => s == .glob || s == .clu || s == .ws
  | .stFill => s == .loc || s == .clu || s == .ws
  | _ => s == .loc || s == .clu || s == .glob || s == .ws

/-- Everything that traps ENCODING in an LD or ST operation (R82 to R85). -/
def MemOp.encOk (t : MemTag) (o : MemOp) : Bool :=
  t.spaceOk o.space
  && (o.space != .handle || decide (o.off.toNat < 4096))
  && (o.space != .spill || (o.base == none && o.land == 0))
  && (if t.isLd then (t != .ldPf || (!o.k && o.reg == 0 && o.land == 0 && o.w == 0 && o.nr))
      else if t.isSt then !o.nr && o.land == 0
      else !o.k && (if t.isAt then o.nr else !o.nr && o.land == 0)
        && (!(t == .atFadd || t == .redFadd) || o.w == 1)
        && (t != .atCas || (!o.reg.getLsbD 0 && decide (o.reg.toNat ≤ 46))))

/-- A reserved W code (R82, R85). -/
def MemOp.widthOk (o : MemOp) : Bool := decide (o.w.toNat < (if o.k then 3 else 2))

/-- A well-formed LD or ST operation. -/
def MemOp.wf (t : MemTag) (o : MemOp) : Bool := o.encOk t && o.widthOk

/-- The spaces the CP slot moves data between (R87). -/
def Space.cpOk (s : Space) : Bool := s == .loc || s == .clu || s == .glob

/-- Everything that traps ENCODING in a CP operation (R86, R87, R215, R219). -/
def CpOp.wf (t : CpTag) (o : CpOp) : Bool :=
  let spad := fun (s : Space) => s == .loc || s == .clu
  match t with
  | .cpCopy => (o.dsp.cpOk || o.dsp == .ws) && o.ssp.cpOk && (o.mode != .fe || spad o.dsp)
  | .cpFill => o.dsp.cpOk && o.ssp == .loc && (o.mode != .fe || spad o.dsp)
  | .cpClose => o.mode == .plain && o.dsp == .loc && o.ssp == .loc && o.db == 0 && o.doff == 0 && o.sb == 0 && o.len == 0
  | .bxGth | .bxSct => o.mode == .plain && spad o.dsp && spad o.ssp && decide (o.len.toNat < 48)
  | _ => o.mode == .plain && spad o.dsp && spad o.ssp

/-- The fields of an SY operation that are used: barrier, SA, and the values IMM16 may take (R88, R296). -/
def SyOp.wf (t : SyTag) (o : SyOp) : Bool :=
  let none' := o.bar == 0 && o.sa == 0 && o.imm == 0
  let bar := o.sa == 0 && o.imm == 0
  let sa := o.bar == 0 && o.imm == 0
  let imm := o.bar == 0 && o.sa == 0
  o.sb == 0 &&
  match t with
  | .barInitImm | .barExpectImm => o.sa == 0
  | .barInitReg | .barExpectReg | .barTest => o.imm == 0
  | .barArrive | .barWait | .sySuspend => bar
  | .syFence => imm && decide (o.imm.toNat ≤ 4)
  | .syQjoin => imm && decide (0 < o.imm.toNat) && decide (o.imm.toNat < 64)
  | .syWaitb => imm
  | .syFrame => none' && o.gd.g == 0 && !o.gd.inv
  | .syPhase | .syIreg => imm && decide (o.imm.toNat < 512)
  | .sySuspendEv | .sySuspendFe | .syEvent => sa
  | .sySpawn => o.bar == 0 && decide (o.imm.toNat < 2)
  | .layout => o.bar == 0 && decide (o.imm.toNat < 0x8000)
  | .syYield | .syYieldPark | .syRetire | .syIend | .mpsSwap => none'

/-- Everything that traps ENCODING in a slot operation by its fields alone. -/
def SlotOp.encOk : SlotOp → Bool
  | .alu t o => o.encOk t
  | .br _ o => o.wf
  | .mx o => o.wf
  | .mem t o => o.encOk t
  | .cp t o => o.wf t
  | .sy t o => o.wf t

/-- No reserved W code (R93). -/
def SlotOp.widthOk : SlotOp → Bool
  | .alu _ o => o.widthOk
  | .mem _ o => o.widthOk
  | _ => true

/-- A well-formed slot operation. -/
def SlotOp.wf (x : SlotOp) : Bool := x.encOk && x.widthOk

/-- The spaces of a matrix operand (R181). -/
def Space.muOk : Space → Bool
  | .loc | .clu | .glob | .ws | .handle => true
  | .spill => false

/-- A micro-word that is valid under its layout (R181 to R184). -/
def Micro.wf : Micro → Bool
  | .lat u => u.space.muOk
  | .mma k u => u.space.muOk && (if u.win then u.space == .handle && u.ap == 0 else u.tp == 0)
      && (k == .i8 || (!u.sga && !u.sgb))
  | .drain u => (u.fd == .i32 || u.fd == .e4m3 || u.fd == .bf16 || u.fd == .f32)
      && (u.space == .loc || u.space == .clu || u.space == .glob)
  | .adv u => u.y == none || u.imm == 0
  | .loop _ => true
  | .end_ => true

/-- A step whose operands its encoding or its register admits. -/
def Instr.wf (i : Instr) : Bool :=
  match i.toSlot with
  | some x => x.wf
  | none =>
    match i with
    | .muLat _ u => (Micro.lat u).wf
    | .muMmaE4m3 _ u => (Micro.mma .e4m3 u).wf
    | .muMmaBf16 _ u => (Micro.mma .bf16 u).wf
    | .muMmaBf16q _ u => (Micro.mma .bf16q u).wf
    | .muMmaI8 _ u => (Micro.mma .i8 u).wf
    | .muMmaPh _ u => (Micro.mma .ph u).wf
    | .muDrain _ u => (Micro.drain u).wf
    | .muAdv _ u => (Micro.adv u).wf
    | .hostMemoryRead _ _ n _ => decide (n ≤ 64)
    | .hostMemoryWrite _ _ d _ => decide (d.length ≤ 64)
    | _ => true

end Sys2Proof
end

