-- ==== Sys2Proof/Decode.lean ====
section
/-! DEFINITION. From bits to operations and back: control words (R69 to R76), slot bodies (R63 to R68, R80 to R88),
stored bundles and their expansion (R55 to R59), micro-words and routine entries (R175, R181 to R184). A layout is the
list of its field widths from bit 0 up, as the spec's tables list them; decoder and encoder read the same layout. -/

namespace Sys2Proof

/-- The fields of a word, by their widths from bit 0 up. -/
def unpack : List Nat → Nat → List Nat
  | [], _ => []
  | w :: ws, n => n % 2 ^ w :: unpack ws (n / 2 ^ w)

/-- The word that holds given field values. -/
def pack : List Nat → List Nat → Nat
  | w :: ws, v :: vs => v + 2 ^ w * pack ws vs
  | _, _ => 0

/-- A bit as a number. -/
def bit (b : Bool) : Nat := if b then 1 else 0

/-- The bytes of a number, least significant first (R11). -/
def bytesOf : Nat → Nat → List Byte
  | 0, _ => []
  | n + 1, v => BitVec.ofNat 8 v :: bytesOf n (v / 256)

/-- The number that bytes spell, least significant first (R11). -/
def natOf : List Byte → Nat
  | [] => 0
  | b :: bs => b.toNat + 256 * natOf bs

/-! ### Formats, sources, modifiers -/

/-- R70. -/
def Fmt.ofCode : Nat → Fmt
  | 0 => .none | 1 => .i8 | 2 => .n8 | 3 => .i16 | 4 => .n16 | 5 => .i32 | 6 => .n32 | 7 => .i64
  | 8 => .n64 | 9 => .e4m3 | 10 => .bf16 | 11 => .f16 | 12 => .f32 | 13 => .ph8 | 14 => .ph16 | _ => .phc32

/-- R70. -/
def Fmt.code : Fmt → Nat
  | .none => 0 | .i8 => 1 | .n8 => 2 | .i16 => 3 | .n16 => 4 | .i32 => 5 | .n32 => 6 | .i64 => 7
  | .n64 => 8 | .e4m3 => 9 | .bf16 => 10 | .f16 => 11 | .f32 => 12 | .ph8 => 13 | .ph16 => 14 | .phc32 => 15

/-- R64; a reserved value is refused. -/
def Src.ofCode (n : Nat) : Option Src :=
  if n < 0x40 then some (.reg (BitVec.ofNat 6 n))
  else if n = 0x40 then some .zero
  else if n = 0x41 then some .imm
  else if n = 0x42 then some .k0
  else if n = 0x43 then some .k1
  else if 0x80 ≤ n ∧ n < 0x90 then some (.latch (BitVec.ofNat 4 (n - 0x80)))
  else none

/-- R64. -/
def Src.code : Src → Nat
  | .reg n => n.toNat
  | .zero => 0x40
  | .imm => 0x41
  | .k0 => 0x42
  | .k1 => 0x43
  | .latch n => 0x80 + n.toNat

/-- R72; 11 is refused. -/
def Sat.ofCode : Nat → Option Sat
  | 0 => some .none | 1 => some .sat | 2 => some .satf | _ => none
/-- R72. -/
def Sat.code : Sat → Nat
  | .none => 0 | .sat => 1 | .satf => 2

/-- R74; 110, 111 and any of bits [7:3] are refused. -/
def Post.ofCode : Nat → Option Post
  | 0 => some .none | 1 => some .conv | 2 => some .clamp | 3 => some .rsum | 4 => some .rmax | 5 => some .rmin
  | _ => none
/-- R74. -/
def Post.code : Post → Nat
  | .none => 0 | .conv => 1 | .clamp => 2 | .rsum => 3 | .rmax => 4 | .rmin => 5

/-- R73: NEG, ABS, EXT, BC, EL. -/
def preLayout : List Nat := [1, 1, 1, 1, 4]
/-- R73. -/
def Pre.ofCode (n : Nat) : Pre :=
  match unpack preLayout n with
  | [neg, abs, ext, bc, el] => ⟨neg == 1, abs == 1, ext == 1, bc == 1, BitVec.ofNat 4 el⟩
  | _ => .zero
/-- R73. -/
def Pre.code (p : Pre) : Nat := pack preLayout [bit p.neg, bit p.abs, bit p.ext, bit p.bc, p.el.toNat]

/-- R66: with E = 0 the barrier bits must be zero. The outer option refuses. -/
def arrOf (n : Nat) : Option (Option (BitVec 4)) :=
  if 16 ≤ n then some (some (BitVec.ofNat 4 (n - 16))) else if n = 0 then some none else none
/-- R66. -/
def arrCode : Option (BitVec 4) → Nat
  | some b => 16 + b.toNat
  | none => 0

/-! ### Control words -/

/-- R69: CORE, MS, MVA and MVB, reserved, FA, FB, FC, FD, SAT, reserved, PREA, PREB, PREC, POST, K0, K1, PERM, reserved. -/
def ctlLayout : List Nat := [8, 3, 1, 4, 4, 4, 4, 2, 2, 8, 8, 8, 8, 32, 32, 64, 64]

/-- A control word's CORE, slot mask and other fields; a reserved field or code is refused (R69, R72, R74, R76). -/
def decodeCtl (w : W256) : Option (Nat × BitVec 3 × CtlWord) :=
  match unpack ctlLayout w.toNat with
  | [core, msk, z0, fa, fb, fc, fd, sat, z1, pa, pb, pc, post, k0, k1, perm, z2] =>
    if z0 = 0 ∧ z1 = 0 ∧ z2 = 0 then
      match Sat.ofCode sat, Post.ofCode post with
      | some s, some p => some (core, BitVec.ofNat 3 msk,
          { fa := Fmt.ofCode fa, fb := Fmt.ofCode fb, fc := Fmt.ofCode fc, fd := Fmt.ofCode fd, sat := s,
            prea := Pre.ofCode pa, preb := Pre.ofCode pb, prec := Pre.ofCode pc, post := p,
            k0 := BitVec.ofNat 32 k0, k1 := BitVec.ofNat 32 k1, perm := BitVec.ofNat 64 perm })
      | _, _ => none
    else none
  | _ => none

/-- The control word of a CORE, slot mask and fields (R69). -/
def encodeCtl (core : Nat) (msk : BitVec 3) (c : CtlWord) : W256 :=
  BitVec.ofNat 256 (pack ctlLayout
    [core, msk.toNat, 0, c.fa.code, c.fb.code, c.fc.code, c.fd.code, c.sat.code, 0, c.prea.code, c.preb.code,
     c.prec.code, c.post.code, c.k0.toNat, c.k1.toNat, c.perm.toNat, 0])

/-- The control word of an operation that has no formats, modifiers or constants. -/
def CtlWord.plain : CtlWord :=
  ⟨.none, .none, .none, .none, .none, .zero, .zero, .zero, .none, 0, 0, 0⟩

/-- A descriptor (R75): engine, read ranges and write ranges as (first line, last line). -/
structure Descriptor where
  eng : BitVec 2
  rd  : List (Nat × Nat)
  wr  : List (Nat × Nat)
  deriving DecidableEq, Repr

/-- R75: CORE, zero, ENG, NRD, NWR, zero, then the range words. -/
def descLayout : List Nat := [8, 4, 2, 3, 3, 44, 24, 24, 24, 24, 24, 24, 24, 24]

/-- One range of a descriptor: used ranges keep a ≤ b ≤ 3,071, unused ranges are zero (R75). -/
def rangesOf : Nat → List Nat → Option (List (Nat × Nat))
  | _, [] => some []
  | 0, r :: rs => if r = 0 then rangesOf 0 rs else none
  | n + 1, r :: rs =>
    let a := r % 4096
    let b := r / 4096
    if a ≤ b ∧ b ≤ 3071 then (rangesOf n rs).map ((a, b) :: ·) else none

/-- The descriptor a control word holds, or none where R75 traps ENCODING. -/
def decodeDescriptor (w : W256) : Option Descriptor :=
  match unpack descLayout w.toNat with
  | [core, z0, eng, nrd, nwr, z1, r0, r1, r2, r3, r4, r5, r6, r7] =>
    if core = 0xF0 ∧ z0 = 0 ∧ z1 = 0 ∧ nrd ≤ 4 ∧ nwr ≤ 4 then
      match rangesOf nrd [r0, r1, r2, r3], rangesOf nwr [r4, r5, r6, r7] with
      | some rd, some wr => some ⟨BitVec.ofNat 2 eng, rd, wr⟩
      | _, _ => none
    else none
  | _ => none

/-! ### Slot bodies -/

/-- The S-slot operation of a CORE, apart from the branch form (R77). -/
def sTagOf : Nat → Option AluTag
  | 0x01 => some .add
  | 0x02 => some .sub
  | 0x03 => some .mul
  | 0x04 => some .mulh
  | 0x05 => some .min
  | 0x06 => some .max
  | 0x07 => some .mov
  | 0x08 => some .and
  | 0x09 => some .or
  | 0x0a => some .xor
  | 0x0b => some .andn
  | 0x0c => some .shl
  | 0x0d => some .shr
  | 0x0e => some .rotl
  | 0x0f => some .sel
  | 0x10 => some .fma
  | 0x11 => some .fms
  | 0x12 => some .div
  | 0x13 => some .rem
  | 0x14 => some .clz
  | 0x15 => some .popc
  | 0x16 => some .cvt
  | 0x20 => some .cmpEq
  | 0x21 => some .cmpNe
  | 0x22 => some .cmpLt
  | 0x23 => some .cmpLe
  | 0x25 => some .cmpPhb
  | 0x26 => some .cmpPho
  | 0x28 => some .gand
  | 0x29 => some .gor
  | 0x2a => some .gxor
  | 0x2b => some .gandn
  | 0x2c => some .gtos
  | 0x2d => some .stog
  | 0x40 => some .phmul
  | 0x41 => some .phsub
  | 0x81 => some .jr
  | 0x83 => some .callr
  | 0x84 => some .ret
  | 0x86 => some .mfsw
  | 0x87 => some .mtsw
  | 0x88 => some .movMp
  | 0x89 => some .mfmp
  | 0x8a => some .break
  | 0x8b => some .syscall
  | 0x8c => some .uiret
  | 0xa0 => some .resume
  | 0xa1 => some .cwtWr
  | 0xa2 => some .cwtRd
  | 0xa3 => some .mpsWr
  | 0xa4 => some .ctxSave
  | 0xa5 => some .ctxLoad
  | 0xa6 => some .bankSave
  | 0xa7 => some .bankLoad
  | 0xa8 => some .fmaskRd
  | 0xb0 => some .fmaskWr
  | _ => none

/-- The branch-form operation of a CORE (R68, R77). -/
def brTagOf : Nat → Option BrTag
  | 0x80 => some .br
  | 0x82 => some .call
  | 0x85 => some .loopBr
  | _ => none

/-- CORE of a branch-form operation (R77). -/
def BrTag.core : BrTag → Nat
  | .br => 0x80
  | .call => 0x82
  | .loopBr => 0x85

/-- The VA and VB operation of a CORE (R77). -/
def vTagOf : Nat → Option AluTag
  | 0x01 => some .vadd
  | 0x02 => some .vsub
  | 0x03 => some .vmul
  | 0x04 => some .vmulh
  | 0x05 => some .vmin
  | 0x06 => some .vmax
  | 0x07 => some .vmov
  | 0x08 => some .vand
  | 0x09 => some .vor
  | 0x0a => some .vxor
  | 0x0b => some .vandn
  | 0x0c => some .vshl
  | 0x0d => some .vshr
  | 0x0f => some .vsel
  | 0x10 => some .vfma
  | 0x11 => some .vfms
  | 0x14 => some .vclz
  | 0x15 => some .vpopc
  | 0x16 => some .vcvt
  | 0x20 => some .vcmpEq
  | 0x21 => some .vcmpNe
  | 0x22 => some .vcmpLt
  | 0x23 => some .vcmpLe
  | 0x24 => some .vcmpUn
  | 0x25 => some .vcmpPhb
  | 0x26 => some .vcmpPho
  | 0x30 => some .vperm
  | 0x31 => some .vbcast
  | 0x32 => some .vext
  | 0x33 => some .vrow
  | 0x34 => some .vwrow
  | 0x35 => some .vscacc
  | 0x36 => some .vredsum
  | 0x37 => some .vredmax
  | 0x38 => some .vredmin
  | 0x39 => some .vrcp
  | 0x3a => some .vrsqrt
  | 0x3b => some .vsqrt
  | 0x3c => some .vexp2
  | 0x3d => some .vlog2
  | 0x3e => some .vsin
  | 0x3f => some .vcos
  | 0x40 => some .vphmul
  | 0x41 => some .vphsub
  | 0x42 => some .vphacc
  | 0x43 => some .vphres
  | _ => none

/-- R63: CX, W, D, N, A, B, C, G, I, ARR, IMM12. -/
def aluLayout : List Nat := [9, 2, 6, 1, 8, 8, 8, 4, 1, 5, 12]
/-- R68: CX, W, D, N, displacement, G, I, ARR, IMM12. -/
def brLayout : List Nat := [9, 2, 6, 1, 24, 4, 1, 5, 12]

/-- The operation of an S, VA or VB body under the control word it names; none where a code is reserved or the CORE has
no mnemonic in the slot (R64, R66 to R77). -/
def decodeAlu (u : AluUnit) (body : W64) (cw : W256) : Option SlotOp :=
  match decodeCtl cw with
  | none => none
  | some (core, msk, c) =>
    match (if u = .s then brTagOf core else none) with
    | some t =>
      match unpack brLayout body.toNat with
      | [cx, w, d, n, disp, g, i, arr, imm] =>
        if c = { CtlWord.plain with k0 := c.k0, k1 := c.k1 } ∧ msk = 1 ∧ d = 0 ∧ n = 0 then
          (arrOf arr).map fun r => .br t
            ⟨BitVec.ofNat 9 cx, BitVec.ofNat 2 w, BitVec.ofNat 24 disp, ⟨BitVec.ofNat 4 g, i == 1, r⟩, BitVec.ofNat 12 imm⟩
        else none
      | _ => none
    | none =>
      match (if u = .s then sTagOf core else vTagOf core), unpack aluLayout body.toNat with
      | some t, [cx, w, d, n, a, b, cc, g, i, arr, imm] =>
        match Src.ofCode a, Src.ofCode b, Src.ofCode cc, arrOf arr with
        | some a, some b, some x, some r => some (.alu t
            { unit := u, cx := BitVec.ofNat 9 cx, w := BitVec.ofNat 2 w, d := BitVec.ofNat 6 d, nowb := n == 1,
              a := a, b := b, c := x, gd := ⟨BitVec.ofNat 4 g, i == 1, r⟩, imm := BitVec.ofNat 12 imm,
              msk := msk, cw := c })
        | _, _, _, _ => none
      | _, _ => none

/-- R80: RT, SL, LM, RBK, ACC, LAND, G, I, ARR, OVS low, OVS parameter, OVS enable, OVV. -/
def mxLayout : List Nat := [8, 2, 2, 4, 1, 12, 4, 1, 5, 5, 3, 1, 16]

/-- R80. -/
def LatchMode.ofCode : Nat → Option LatchMode
  | 0 => some .use | 1 => some .loadUse | 2 => some .loadOnly | _ => none
/-- R80. -/
def LatchMode.code : LatchMode → Nat
  | .use => 0 | .loadUse => 1 | .loadOnly => 2

/-- An M body (R80, R81). -/
def decodeMx (body : W64) : Option SlotOp :=
  match unpack mxLayout body.toNat with
  | [rt, sl, lm, rbk, acc, land, g, i, arr, z, p, en, v] =>
    match LatchMode.ofCode lm, arrOf arr with
    | some lm, some r =>
      if z = 0 ∧ (en = 1 ∨ (p = 0 ∧ v = 0)) then
        some (.mx ⟨BitVec.ofNat 8 rt, BitVec.ofNat 2 sl, lm, BitVec.ofNat 4 rbk, acc == 1, BitVec.ofNat 12 land,
          ⟨BitVec.ofNat 4 g, i == 1, r⟩, if en = 1 then some (BitVec.ofNat 3 p, BitVec.ofNat 16 v) else none⟩)
      else none
    | _, _ => none
  | _ => none

/-- R83. -/
def Space.ofCode : Nat → Option Space
  | 0 => some .loc | 1 => some .clu | 2 => some .glob | 3 => some .ws | 4 => some .spill | 5 => some .handle
  | _ => none
/-- R83. -/
def Space.code : Space → Nat
  | .loc => 0 | .clu => 1 | .glob => 2 | .ws => 3 | .spill => 4 | .handle => 5

/-- R82: OP, NR, K, REG, SPACE, BASE, OFF, LAND, W, G, I, ARR. -/
def memLayout : List Nat := [4, 1, 1, 6, 3, 7, 18, 12, 2, 4, 1, 5]

/-- LD-slot operations (R84). -/
def ldTagOf : Nat → Option MemTag
  | 0 => some .ld | 1 => some .ldAcq | 2 => some .ldTake | 3 => some .ldPf | _ => none

/-- ST-slot operations, by OP and NR (R84). -/
def stTagOf : Nat → Bool → Option MemTag
  | 0, _ => some .st
  | 1, _ => some .stRel
  | 2, _ => some .stFill
  | 4, nr => some (if nr then .atFadd else .redFadd)
  | 5, nr => some (if nr then .atMinN else .redMinN)
  | 6, nr => some (if nr then .atMaxN else .redMaxN)
  | 8, nr => some (if nr then .atAdd else .redAdd)
  | 9, nr => some (if nr then .atMinI else .redMinI)
  | 10, nr => some (if nr then .atMaxI else .redMaxI)
  | 11, nr => some (if nr then .atAnd else .redAnd)
  | 12, nr => some (if nr then .atOr else .redOr)
  | 13, nr => some (if nr then .atXor else .redXor)
  | 14, true => some .atSwap
  | 15, true => some .atCas
  | _, _ => none

/-- OP of an LD or ST operation (R84). -/
def MemTag.code : MemTag → Nat
  | .ld => 0 | .ldAcq => 1 | .ldTake => 2 | .ldPf => 3
  | .st => 0 | .stRel => 1 | .stFill => 2
  | .atFadd | .redFadd => 4
  | .atMinN | .redMinN => 5
  | .atMaxN | .redMaxN => 6
  | .atAdd | .redAdd => 8
  | .atMinI | .redMinI => 9
  | .atMaxI | .redMaxI => 10
  | .atAnd | .redAnd => 11
  | .atOr | .redOr => 12
  | .atXor | .redXor => 13
  | .atSwap => 14
  | .atCas => 15

/-- An LD (`st` false) or ST body (R82 to R84). -/
def decodeMem (st : Bool) (body : W64) : Option SlotOp :=
  match unpack memLayout body.toNat with
  | [op, nr, k, reg, sp, base, off, land, w, g, i, arr] =>
    match (if st then stTagOf op (nr == 1) else ldTagOf op), Space.ofCode sp, arrOf arr with
    | some t, some s, some r =>
      if base ≤ 0x40 then
        some (.mem t
          { nr := nr == 1, k := k == 1, reg := BitVec.ofNat 6 reg, space := s,
            base := if base = 0x40 then none else some (BitVec.ofNat 6 base), off := BitVec.ofNat 18 off,
            land := BitVec.ofNat 12 land, w := BitVec.ofNat 2 w, gd := ⟨BitVec.ofNat 4 g, i == 1, r⟩ })
      else none
    | _, _, _ => none
  | _ => none

/-- R86: OP, MODE, DSP, DB, DOFF, SSP, SB, LEN, G, I, ARR. -/
def cpLayout : List Nat := [4, 2, 3, 6, 8, 3, 6, 6, 4, 1, 5]

/-- R86. -/
def CpMode.ofCode : Nat → Option CpMode
  | 0 => some .plain | 1 => some .fe | 2 => some .ui | _ => none
/-- R86. -/
def CpMode.code : CpMode → Nat
  | .plain => 0 | .fe => 1 | .ui => 2

/-- R87. -/
def cpTagOf : Nat → Option CpTag
  | 0 => some .cpCopy | 1 => some .cpFill | 2 => some .cpClose | 8 => some .bxTr | 9 => some .bxIlv
  | 10 => some .bxGth | 11 => some .bxSct | 12 => some .bxBc | _ => none
/-- R87. -/
def CpTag.code : CpTag → Nat
  | .cpCopy => 0 | .cpFill => 1 | .cpClose => 2 | .bxTr => 8 | .bxIlv => 9 | .bxGth => 10 | .bxSct => 11 | .bxBc => 12

/-- A CP body (R86, R87). -/
def decodeCp (body : BitVec 48) : Option SlotOp :=
  match unpack cpLayout body.toNat with
  | [op, mode, dsp, db, doff, ssp, sb, len, g, i, arr] =>
    match cpTagOf op, CpMode.ofCode mode, Space.ofCode dsp, Space.ofCode ssp, arrOf arr with
    | some t, some m, some d, some s, some r => some (.cp t
        { mode := m, dsp := d, db := BitVec.ofNat 6 db, doff := BitVec.ofNat 8 doff, ssp := s, sb := BitVec.ofNat 6 sb,
          len := BitVec.ofNat 6 len, gd := ⟨BitVec.ofNat 4 g, i == 1, r⟩ })
    | _, _, _, _, _ => none
  | _ => none

/-- R88: OP, BAR, SA, SB, IMM16, G, I, ARR. -/
def syLayout : List Nat := [6, 4, 6, 6, 16, 4, 1, 5]

/-- R88. sy.yield has the tag of the level that runs it: a yield of the user stream, or the supervisor's park (R378). -/
def syTagOf (sup : Bool) : Nat → Option SyTag
  | 0x01 => some .barInitImm | 0x02 => some .barInitReg | 0x03 => some .barExpectImm | 0x04 => some .barExpectReg
  | 0x05 => some .barArrive | 0x06 => some .barWait | 0x07 => some .barTest | 0x08 => some .syFence
  | 0x09 => some .syQjoin | 0x0A => some .syWaitb | 0x0B => some .syFrame | 0x0C => some .syPhase
  | 0x0D => some .sySuspend | 0x0E => some .sySuspendEv | 0x0F => some .sySuspendFe
  | 0x10 => some (if sup then .syYieldPark else .syYield)
  | 0x11 => some .sySpawn | 0x12 => some .syRetire | 0x13 => some .syIreg | 0x14 => some .syIend
  | 0x15 => some .syEvent | 0x16 => some .layout | 0x20 => some .mpsSwap
  | _ => none

/-- R88. -/
def SyTag.code : SyTag → Nat
  | .barInitImm => 0x01 | .barInitReg => 0x02 | .barExpectImm => 0x03 | .barExpectReg => 0x04
  | .barArrive => 0x05 | .barWait => 0x06 | .barTest => 0x07 | .syFence => 0x08 | .syQjoin => 0x09
  | .syWaitb => 0x0A | .syFrame => 0x0B | .syPhase => 0x0C | .sySuspend => 0x0D | .sySuspendEv => 0x0E
  | .sySuspendFe => 0x0F | .syYield => 0x10 | .syYieldPark => 0x10 | .sySpawn => 0x11 | .syRetire => 0x12
  | .syIreg => 0x13 | .syIend => 0x14 | .syEvent => 0x15 | .layout => 0x16 | .mpsSwap => 0x20

/-- An SY body (R88), as the level of the running stream reads it. -/
def decodeSy (sup : Bool) (body : BitVec 48) : Option SlotOp :=
  match unpack syLayout body.toNat with
  | [op, bar, sa, sb, imm, g, i, arr] =>
    match syTagOf sup op, arrOf arr with
    | some t, some r => some (.sy t
        ⟨BitVec.ofNat 4 bar, BitVec.ofNat 6 sa, BitVec.ofNat 6 sb, BitVec.ofNat 16 imm, ⟨BitVec.ofNat 4 g, i == 1, r⟩⟩)
    | _, _ => none
  | _ => none

/-- The slots in order: S, VA, VB, M, LD, ST, CP, SY (R55). -/
abbrev SlotId := Fin 8

/-- Width of a slot's body in bits (R55). -/
def slotBits (i : SlotId) : Nat := if i < 6 then 64 else 48
/-- First bit of a slot in the expanded bundle (R55). -/
def slotPos (i : SlotId) : Nat := if i < 6 then 32 + 64 * i.val else 416 + 48 * (i.val - 6)
/-- The increment field of a slot: first bit and width (R59). -/
def slotInc (i : SlotId) : Nat × Nat :=
  if i < 3 then (52, 12) else if i = 3 then (12, 4) else if i < 6 then (22, 18) else if i = 6 then (15, 8) else (6, 4)

/-- The operation of a slot body. `cw` is the control word that an S, VA or VB body names. -/
def decodeSlot (sup : Bool) (i : SlotId) (body : W64) (cw : W256) : Option SlotOp :=
  match i with
  | 0 => decodeAlu .s body cw
  | 1 => decodeAlu .va body cw
  | 2 => decodeAlu .vb body cw
  | 3 => decodeMx body
  | 4 => decodeMem false body
  | 5 => decodeMem true body
  | 6 => decodeCp (body.setWidth 48)
  | 7 => decodeSy sup (body.setWidth 48)

/-- The control word a body names: its CX (R63). -/
def bodyCx (body : W64) : Nat := body.toNat % 512

/-! ### Stored bundles -/

/-- Code of a slot in a header (R56). -/
def headerCode (h : Nat) (i : SlotId) : Nat := h / 4 ^ i.val % 4

/-- All the slots, in order. -/
def allSlots : List SlotId := [0, 1, 2, 3, 4, 5, 6, 7]

/-- Length in bytes of a stored bundle, from its header (R57). -/
def storedSize (h : Nat) : Nat :=
  4 + (allSlots.map fun i => if headerCode h i = 1 then slotBits i / 8 else 0).sum

/-- The body of a slot in an expanded bundle (R55). -/
def bodyOf (e : W512) (i : SlotId) : W64 := BitVec.ofNat 64 (e.toNat / 2 ^ slotPos i % 2 ^ slotBits i)

/-- Whether an expanded bundle holds a slot (R56). -/
def slotPresent (e : W512) (i : SlotId) : Bool := headerCode (e.toNat % 2 ^ 16) i == 1

/-- STAMP of an expanded bundle (R56). -/
def stampOf (e : W512) : Nat := e.toNat / 2 ^ 24 % 128

/-- A body with its increment field stepped by the signed byte INC (R58, R59). -/
def incBody (i : SlotId) (body inc : Nat) : Nat :=
  let p := (slotInc i).1
  let w := (slotInc i).2
  let f := body / 2 ^ p % 2 ^ w
  let f' := ((f : Int) + (BitVec.ofNat 8 inc).toInt) % (2 ^ w : Int)
  body - f * 2 ^ p + f'.toNat * 2 ^ p

/-- One slot of an expansion: the body placed and what is left of the stored bodies (R58). -/
def expandSlot (peb : W512) (h : Nat) (i : SlotId) (rest : List Byte) : Option (Option Nat × List Byte) :=
  match headerCode h i with
  | 0 => some (none, rest)
  | 1 => some (some (natOf (rest.take (slotBits i / 8))), rest.drop (slotBits i / 8))
  | c =>
    if slotPresent peb i then
      let b := (bodyOf peb i).toNat
      some (some (if c = 3 then incBody i b (h / 2 ^ 16 % 256) else b), rest)
    else none

/-- The slots of an expansion from a list of slots on (R58). -/
def expandSlots (peb : W512) (h : Nat) : List SlotId → List Byte → Nat → Option Nat
  | [], _, e => some e
  | i :: is, rest, e =>
    match expandSlot peb h i rest with
    | none => none
    | some (none, rest) => expandSlots peb h is rest e
    | some (some b, rest) => expandSlots peb h is rest (e + b * 2 ^ slotPos i + 4 ^ i.val)

/-- expand of R58: the expanded bundle of a stored bundle against PEB, or none where it traps ENCODING. -/
def expand (peb : W512) (bytes : List Byte) : Option W512 :=
  let h := natOf (bytes.take 4)
  if h / 2 ^ 31 % 2 = 1 then none
  else if h / 2 ^ 16 % 256 ≠ 0 ∧ !(allSlots.any fun i => headerCode h i == 3) then none
  else (expandSlots peb h allSlots (bytes.drop 4) (h / 2 ^ 16 % 2 ^ 15 * 2 ^ 16)).map (BitVec.ofNat 512)

/-- A stored bundle of new bodies: header with the given STAMP, then the bodies in slot order (R57). -/
def storeBundle (stamp : Nat) (bodies : List (SlotId × W64)) : List Byte :=
  bytesOf 4 ((bodies.map fun b => 4 ^ b.1.val).sum + stamp * 2 ^ 24)
    ++ (bodies.map fun b => bytesOf (slotBits b.1 / 8) b.2.toNat).flatten

/-! ### Encoding -/

/-- The slot an operation stands in. -/
def SlotOp.slot : SlotOp → SlotId
  | .alu _ o => match o.unit with
    | .s => 0
    | .va => 1
    | .vb => 2
  | .br _ _ => 0
  | .mx _ => 3
  | .mem t _ => if t.isLd then 4 else 5
  | .cp _ _ => 6
  | .sy _ _ => 7

/-- G, I, ARR as a layout's fields. -/
def Guarding.fields (g : Guarding) : List Nat := [g.g.toNat, bit g.inv, arrCode g.arr]

/-- The body of an operation (R63, R68, R80, R82, R86, R88). -/
def SlotOp.body : SlotOp → W64
  | .alu _ o => BitVec.ofNat 64 (pack aluLayout
      ([o.cx.toNat, o.w.toNat, o.d.toNat, bit o.nowb, o.a.code, o.b.code, o.c.code] ++ o.gd.fields ++ [o.imm.toNat]))
  | .br _ o => BitVec.ofNat 64 (pack brLayout
      ([o.cx.toNat, o.w.toNat, 0, 0, o.disp.toNat] ++ o.gd.fields ++ [o.imm.toNat]))
  | .mx o => BitVec.ofNat 64 (pack mxLayout
      ([o.rt.toNat, o.sl.toNat, o.lm.code, o.rbk.toNat, bit o.acc, o.land.toNat] ++ o.gd.fields
        ++ (match o.ovr with | some (p, v) => [0, p.toNat, 1, v.toNat] | none => [0, 0, 0, 0])))
  | .mem t o => BitVec.ofNat 64 (pack memLayout
      ([t.code, bit o.nr, bit o.k, o.reg.toNat, o.space.code, (match o.base with | some b => b.toNat | none => 0x40),
        o.off.toNat, o.land.toNat, o.w.toNat] ++ o.gd.fields))
  | .cp t o => BitVec.ofNat 64 (pack cpLayout
      ([t.code, o.mode.code, o.dsp.code, o.db.toNat, o.doff.toNat, o.ssp.code, o.sb.toNat, o.len.toNat] ++ o.gd.fields))
  | .sy t o => BitVec.ofNat 64 (pack syLayout ([t.code, o.bar.toNat, o.sa.toNat, o.sb.toNat, o.imm.toNat] ++ o.gd.fields))

/-- The control word an operation of the S, VA or VB slot names; zero for the others. -/
def SlotOp.ctl : SlotOp → W256
  | .alu t o => encodeCtl t.row.core o.msk o.cw
  | .br t _ => encodeCtl t.core 1 .plain
  | _ => 0

/-- Whether decoding an operation needs the supervisor's reading of sy.yield (R378). -/
def SlotOp.sup : SlotOp → Bool
  | .sy .syYieldPark _ => true
  | _ => false

/-- A stored bundle that holds one operation with STAMP 0, then the control word it names where it names one. -/
def SlotOp.bytes (x : SlotOp) : List Byte :=
  storeBundle 0 [(x.slot, x.body)] ++ (if x.slot < 3 then bytesOf 32 x.ctl.toNat else [])

/-! ### Micro-words and routine entries -/

/-- R181. -/
def latLayout : List Nat := [6, 1, 3, 3, 3, 2, 46]
/-- R182. -/
def mmaLayout : List Nat := [6, 2, 1, 4, 3, 3, 3, 1, 3, 1, 1, 36]
/-- R183. -/
def drainLayout : List Nat := [6, 4, 3, 3, 3, 4, 1, 40]
/-- R184, mu.adv. -/
def advLayout : List Nat := [6, 3, 3, 1, 19, 32]
/-- R184, mu.loop. -/
def loopLayout : List Nat := [6, 3, 11, 44]

/-- UOP of a block operation (R176). -/
def mmaKindOf : Nat → Option MmaKind
  | 0x10 => some .e4m3 | 0x11 => some .bf16 | 0x12 => some .bf16q | 0x13 => some .i8 | 0x14 => some .ph | _ => none
/-- UOP of a block operation (R176). -/
def MmaKind.code : MmaKind → Nat
  | .e4m3 => 0x10 | .bf16 => 0x11 | .bf16q => 0x12 | .i8 => 0x13 | .ph => 0x14

/-- A micro-word (R176, R181 to R184); none where the UOP is reserved or a layout's zero field is not zero. The rest of a
layout's validity is `Micro.wf`. -/
def decodeMicro (w : W64) : Option Micro :=
  let n := w.toNat
  match n % 64 with
  | 0x01 =>
    match unpack latLayout n with
    | [_, h, s, ap, sp, k, z] =>
      match Space.ofCode s with
      | some s => if z = 0 then some (.lat ⟨h == 1, s, BitVec.ofNat 3 ap, BitVec.ofNat 3 sp, BitVec.ofNat 2 k⟩) else none
      | none => none
    | _ => none
  | 0x18 =>
    match unpack drainLayout n with
    | [_, fd, s, ap, sp, bo, q, z] =>
      match Space.ofCode s with
      | some s => if z = 0 then
          some (.drain ⟨Fmt.ofCode fd, s, BitVec.ofNat 3 ap, BitVec.ofNat 3 sp, BitVec.ofNat 4 bo, q == 1⟩) else none
      | none => none
    | _ => none
  | 0x20 =>
    match unpack advLayout n with
    | [_, x, y, u, z, imm] =>
      if z = 0 ∧ (u = 1 ∨ y = 0) then
        some (.adv ⟨BitVec.ofNat 3 x, if u = 1 then some (BitVec.ofNat 3 y) else none, BitVec.ofNat 32 imm⟩) else none
    | _ => none
  | 0x21 =>
    match unpack loopLayout n with
    | [_, x, t, z] => if z = 0 then some (.loop ⟨BitVec.ofNat 3 x, BitVec.ofNat 11 t⟩) else none
    | _ => none
  | 0x3F => if n = 0x3F then some .end_ else none
  | u =>
    match mmaKindOf u, unpack mmaLayout n with
    | some k, [_, am, h, bo, s, ap, sp, win, tp, sga, sgb, z] =>
      match Space.ofCode s with
      | some s => if z = 0 then
          some (.mma k ⟨BitVec.ofNat 2 am, h == 1, BitVec.ofNat 4 bo, s, BitVec.ofNat 3 ap, BitVec.ofNat 3 sp, win == 1,
            BitVec.ofNat 3 tp, sga == 1, sgb == 1⟩) else none
      | none => none
    | _, _ => none

/-- The micro-word of an operation (R181 to R184). -/
def encodeMicro (u : Micro) : W64 :=
  BitVec.ofNat 64 <| match u with
    | .lat u => pack latLayout [0x01, bit u.h, u.space.code, u.ap.toNat, u.sp.toNat, u.kind.toNat, 0]
    | .mma k u => pack mmaLayout [k.code, u.am.toNat, bit u.h, u.bo.toNat, u.space.code, u.ap.toNat, u.sp.toNat,
        bit u.win, u.tp.toNat, bit u.sga, bit u.sgb, 0]
    | .drain u => pack drainLayout [0x18, u.fd.code, u.space.code, u.ap.toNat, u.sp.toNat, u.bo.toNat, bit u.q, 0]
    | .adv u => pack advLayout [0x20, u.x.toNat, (match u.y with | some y => y.toNat | none => 0),
        bit u.y.isSome, 0, u.imm.toNat]
    | .loop u => pack loopLayout [0x21, u.x.toNat, u.t.toNat, 0]
    | .end_ => 0x3F

/-- The step of a micro-word on a core's array; of a drain, all that is left of its bank row. -/
def Micro.toInstr (c : CoreId) : Micro → Instr
  | .lat u => .muLat c u
  | .mma .e4m3 u => .muMmaE4m3 c u
  | .mma .bf16 u => .muMmaBf16 c u
  | .mma .bf16q u => .muMmaBf16q c u
  | .mma .i8 u => .muMmaI8 c u
  | .mma .ph u => .muMmaPh c u
  | .drain u => .muDrain c u
  | .adv u => .muAdv c u
  | .loop u => .muLoop c u
  | .end_ => .muEnd c

/-- The micro-word of a step, where it is one. -/
def Instr.toMicro : Instr → Option Micro
  | .muLat _ u => some (.lat u)
  | .muMmaE4m3 _ u => some (.mma .e4m3 u)
  | .muMmaBf16 _ u => some (.mma .bf16 u)
  | .muMmaBf16q _ u => some (.mma .bf16q u)
  | .muMmaI8 _ u => some (.mma .i8 u)
  | .muMmaPh _ u => some (.mma .ph u)
  | .muDrain _ u => some (.drain u)
  | .muAdv _ u => some (.adv u)
  | .muLoop _ u => some (.loop u)
  | .muEnd _ => some .end_
  | _ => none

/-- A routine entry (R175). -/
structure Routine where
  lpc : Nat
  lv : Bool
  cpc : Nat
  cv : Bool
  mode : Nat
  valid : Bool
  bmask : BitVec 16
  zero : Bool          -- the reserved bits are zero
  deriving DecidableEq, Repr

/-- R175: LPC, LV, CPC, CV, MODE, VALID, BMASK, reserved. -/
def routineLayout : List Nat := [11, 1, 11, 1, 3, 1, 16, 20]

/-- The fields of a routine entry (R175). -/
def routineOf (w : W64) : Routine :=
  match unpack routineLayout w.toNat with
  | [lpc, lv, cpc, cv, mode, v, bm, z] => ⟨lpc, lv == 1, cpc, cv == 1, mode, v == 1, BitVec.ofNat 16 bm, z == 0⟩
  | _ => ⟨0, false, 0, false, 0, false, 0, true⟩

/-! ### Whole instructions -/

/-- The words of an instruction: the stored bundle and control word of a slot operation, or the micro-word. The steps
that no word of the machine encodes have none. -/
def encode (i : Instr) : List Byte :=
  match i.toSlot with
  | some x => x.bytes
  | none =>
    match i.toMicro with
    | some u => bytesOf 8 (encodeMicro u).toNat
    | none => []

/-- The instruction at the start of a byte string: a stored bundle that holds exactly one new body, then, for an S, VA
or VB body, the control word it names. Total, and none where the encoding is reserved. -/
def decode (bytes : List Byte) : Option Instr :=
  let h := natOf (bytes.take 4)
  match expand 0 (bytes.take (storedSize h)), allSlots.filter (fun i => headerCode h i != 0) with
  | some e, [i] =>
    (decodeSlot false i (bodyOf e i) (BitVec.ofNat 256 (natOf ((bytes.drop (storedSize h)).take 32)))).bind fun x =>
      if x.encOk && x.widthOk then some x.toInstr else none
  | _, _ => none

/-- The longest single-operation instruction in bytes: header, body and control word. -/
def maxInstrBytes : Nat := 44

/-- The instruction whose bits are w, numbered from bit 0 of its first byte up (log 11). -/
def decodeTableWord (_nbits w : Nat) : Option Instr := decode (bytesOf maxInstrBytes w)

end Sys2Proof
end

