-- ==== Sys2Proof/Machine/CoreState.lean ====
section
/-! DEFINITION. The state of one core, as plain data: registers and their poison bits, status words, the front end and the
clock of its domain, results not yet written, the six queues, the matrix array, phases, the idempotent region and the
core's stores (01, 05, 07, 08, 12, 17, 21). -/

namespace Sys2Proof.Machine
open Sys2Proof

/-- The causes of R343. -/
inductive Cause where
  | encoding | width | featureMasked | privilege | align | pageFault | protection | poison | latchEmpty
  | schedViolation | schedOverrun | detOverlap | barOverflow | barBroken | matrixFirstUse | iregOverflow
  | layoutFault | fabricTimeout | break_ | syscall | preempt
  deriving DecidableEq, Repr

/-- A cause with the detail it leaves (R342, R343). `slot` is the slot of the operation that gave it. -/
structure Trap where
  cause : Cause
  slot  : Nat
  cdata : W64
  deriving DecidableEq, Repr

/-- The scalar, vector, guard, parameter and shadow registers, the bypass latches, and the poison bit of each (R15 to R17,
R23, R34, R137, R353, R406). Register numbers are physical. -/
structure Regs where
  s   : Vector W64 64
  v   : Vector W1024 64
  g   : Vector W128 16
  x   : Vector W1024 16
  xv  : BitVec 16          -- valid bits of the latches
  mp  : Vector W64 8       -- front set
  sh  : Vector W64 16      -- shadow set of the user-interrupt handler
  sp  : BitVec 64
  vp  : BitVec 64
  gp  : BitVec 16
  xp  : BitVec 16
  mpp : BitVec 8
  shp : BitVec 16
  deriving DecidableEq, Repr

/-- The status words (R22, R37, R127 to R129, R196, R305, R346, R364) and the two header words that are not among them:
XADDR and PTB (R353). -/
structure Sw where
  pl    : BitVec 2
  det   : Bool
  uih   : Bool
  sec   : Bool
  flags : BitVec 5         -- SAT, RANGE, GOOB, DIV0, UILOST, from bit 0 up
  rb    : BitVec 4
  lc    : BitVec 32
  ec    : BitVec 5
  sfc   : BitVec 32
  flo   : BitVec 19
  fhi   : BitVec 19
  fsp   : BitVec 19
  ovb   : W64
  ovp   : W64
  htb   : W64
  mrow  : W64              -- progress pending for the next call
  aown  : W64
  uiv   : BitVec 48
  uis   : BitVec 51
  cause : W64
  cdata : W64
  xpc   : BitVec 48
  xaddr : W64
  ctxid : BitVec 12
  ptb   : W64
  carea : W64
  slice : BitVec 32
  svec  : BitVec 48
  dcause : Vector W128 16
  deriving DecidableEq, Repr

/-- Where a result is written. `sw` is a status word by number, `bar` the effect of bar.init and bar.expect, `fmask`
the feature mask of a function (R142). -/
inductive Dest where
  | none
  | s (r : Fin 64) (w32 : Bool)
  | sh (r : Fin 16) (w32 : Bool)
  | v (r : Fin 64)
  | g (r : Fin 16)
  | mp (r : Fin 8)
  | bank (b : Fin 16) (row : Fin 32)
  | sw (n : Nat)
  | bar (b : Fin 16) (init : Bool)
  | fmask (f : Fin 8)
  deriving DecidableEq, Repr

/-- A result that waits for the end of its cycle t+L−1 (R19): its place in the order of R20 and R226, the destination and
the bytes or guard bits it writes, the latch group it shifts (R24), the ksr flags it sets (R145) and the arrival its
retirement makes (R66). -/
structure Pend where
  due   : Nat
  ord   : Nat
  seq   : Nat
  ipc   : W64
  unit  : Nat
  body  : W64
  dest  : Dest
  val   : W1024
  mask  : W128
  shift : Option (Fin 4)
  latch : W1024
  flags : BitVec 5
  poison : Bool
  arr   : Option (BitVec 4)
  hnd   : Bool
  fault : Option Trap      -- a feature masked since it issued (R359)
  deriving DecidableEq, Repr

/-- What a memory operation in a queue is (R201): an LD or ST operation, a global frame of call or ret (R133), or the
store of cwt.rd (R139). -/
inductive QKind where
  | op (t : MemTag)
  | push
  | pop
  | cwtRd
  deriving DecidableEq, Repr

/-- Where the data of a request is (R27): not returned, held at the memory port, in the oasis, or on time. -/
inductive Ret where
  | none | port | oasis | onTime
  deriving DecidableEq, Repr

/-- An entry of the load, store or atomic queue (R201), with its landing (R27), its progress (R363) and, once a fault is
met, its cause (R203). -/
structure QEnt where
  seq   : Nat
  kind  : QKind
  ipc   : W64
  body  : W64
  space : Space
  addr  : W64              -- address, or coordinate word of a handle access
  handle : Nat
  size  : Nat              -- bytes
  data  : W1024            -- data to store, the operand of an atomic, or the data read so far
  cmp   : W64              -- second operand of at.cas
  land  : Option Nat       -- landing cycle: the request is due at the end of this cycle
  dest  : Dest
  shift : Bool
  prog  : Nat
  done  : Bool             -- performed
  ret   : Ret
  rseq  : Nat              -- order of return at the port
  until_ : Nat             -- tick until which a weight-store refresh makes it wait, once it has reached its bank (R250)
  t0    : Nat              -- T of R251: the tick of its issue, or of the performance of the entry before it
  bound : Bool             -- its LAND is at least the bound that R291 gives it
  poison : Bool
  fault : Option Trap
  arr   : Option (BitVec 4)
  hnd   : Bool
  deriving DecidableEq, Repr

/-- A join of sy.qjoin (R233): operations of the named queues after `seq` wait for those before it. -/
structure Join where
  seq    : Nat
  queues : BitVec 6
  ipc    : W64
  body   : W64
  deriving DecidableEq, Repr

/-- An entry of the copy queue (R213 to R216). `fill` carries the pattern in `src`. -/
structure Copy where
  seq   : Nat
  ipc   : W64
  body  : W64
  fill  : Bool
  mode  : CpMode
  dsp   : Space
  dst   : W64
  ssp   : Space
  src   : W64
  n     : W64
  prog  : Nat
  begun : Bool
  batch : Nat
  poison : Bool            -- the pattern of a fill was poisoned (R406)
  buf   : List (List Byte × Bool)  -- units read and not yet written, with their poison marks (R270, R271, R406)
  wrote : List Bool        -- poison marks of the units of its piece in progress that are written (R405, R406)
  pl    : BitVec 2         -- the level it issued at (R252)
  fault : Option Trap
  arr   : Option (BitVec 4)
  hnd   : Bool
  deriving DecidableEq, Repr

/-- A cp.close whose batch is outstanding (R216, R356). -/
structure Close where
  seq   : Nat
  ipc   : W64
  body  : W64
  batch : Nat
  arr   : Option (BitVec 4)
  deriving DecidableEq, Repr

/-- An entry of the shuffle queue (R219 to R224). -/
structure Shuf where
  seq   : Nat
  ipc   : W64
  body  : W64
  tag   : CpTag
  dsp   : Space
  dst   : W64
  ssp   : Space
  src   : W64
  shape : W64
  list  : W64
  prog  : Nat
  begun : Bool
  pl    : BitVec 2         -- the level it issued at (R252)
  fault : Option Trap
  arr   : Option (BitVec 4)
  hnd   : Bool
  deriving DecidableEq, Repr

/-- A matrix call in its queue (R170 to R173, R196). -/
structure MxCall where
  seq   : Nat
  ipc   : W64
  body  : W64
  ent   : Routine
  sl    : BitVec 2
  lm    : LatchMode
  rbk   : BitVec 4
  acc   : Bool
  par   : Vector W64 8     -- captured set P
  comp  : Bool             -- the part in progress: load or compute
  upc   : Nat
  row   : Nat
  touch : BitVec 16
  rows  : List (BitVec 2048)  -- operand rows fetched and not yet used, from row `row` on (R180, R193)
  part  : List Byte        -- the blocks fetched so far of the row after them (R271)
  elt   : Nat              -- elements of the row being drained that are stored (R271)
  t0    : Option Nat       -- T of R251: the tick in which the fetch of that row from the weight store began
  rowFault : Option Trap   -- the fault met in fetching the row after them (R195)
  wait  : Nat              -- tick until which a weight-store refresh makes its next fetch wait (R250)
  fault : Option Trap      -- the fault the array has reached (R195)
  fin   : Bool             -- its last micro-word has finished
  landDue : Nat            -- last cycle of its own LAND (R173)
  banks : BitVec 16        -- the banks it writes
  arr   : Option (BitVec 4)
  hnd   : Bool
  feat6 : Bool             -- tensor handles were not masked when it issued (R142, R187)
  deriving DecidableEq, Repr

/-- A block operation's completion in flight (R193): its banks are complete at the end of array cycle `due`. -/
structure Completion where
  due   : Nat
  banks : BitVec 16
  seq   : Nat
  deriving DecidableEq, Repr

/-- One of the four open phases (R301). -/
structure Phase where
  opened : Bool
  cx     : BitVec 9
  rd     : List (Nat × Nat)
  wr     : List (Nat × Nat)
  deriving DecidableEq, Repr

/-- A part of a store that an open region holds (R240): the store, the bytes of it that were done before, and what it writes. -/
structure Held where
  ent   : QEnt
  from_ : Nat
  space : Space
  addr  : W64
  bytes : List Byte
  deriving DecidableEq, Repr

/-- An operation of the S slot that a resume executes in its slot, with the operand that its record captured (R358). -/
structure Redo where
  seq  : Nat
  ipc  : W64
  body : W64
  val  : W64
  hnd  : Bool
  deriving DecidableEq, Repr

/-- The idempotent region (R240, R366). -/
structure Region where
  opened : Bool
  cx     : BitVec 9
  wr     : List (Nat × Nat)
  unbuf  : Bool          -- it has overflowed: stores are no longer held
  held   : List Held     -- oldest first
  s      : Vector W64 5
  pc     : W64
  seq    : Nat           -- place of its sy.ireg in issue order
  deriving DecidableEq, Repr

/-- What a hold waits for (R39, R231). -/
inductive HoldKind where
  | barWait (b : Fin 16) (phase : Bool)
  | fence (scope : Nat)
  | waitb (n : Nat)
  | drained (engines : List Nat)              -- sy.phase: the named engines have no earlier work open
  | endRun (t : SyTag) (a : W64)
  | spawn (pc : W64) (stage : Nat) (s : Vector W64 5)
  | restart                                   -- a region's restart (R367)
  | layout (a : W64)                          -- left by a fault on the conversion bitmap, to be made again
  | mpsSwap
  | resume (a : W64) (n : Nat)
  | barNew (b : Fin 16)                       -- a bar.wait reissued before it recorded a phase (R358)
  | sup (t : AluTag) (a b : W64)              -- an operation of R139 whose reads and writes are to come
  | iend                                      -- a sy.iend whose commit met a fault
  deriving DecidableEq, Repr

/-- An operation that holds issue (R39, R231). -/
structure Hold where
  kind : HoldKind
  seq  : Nat
  ipc  : W64
  body : W64
  slot : Nat
  sb   : W64
  arr  : Option (BitVec 4)
  hnd  : Bool
  fault : Option Trap      -- a feature masked since it issued (R359)
  deriving DecidableEq, Repr

/-- The place of a core within its cycle: before the issue of the cycle's bundle, or after it. -/
inductive CycPhase where
  | start | after
  deriving DecidableEq, Repr

/-- The front end and the clock of the core's domain (R29, R38, R39, R58, R60, R132). -/
structure Front where
  peb   : W512
  hpeb  : W512             -- handler PEB
  ib    : W512             -- the expanded bundle issued last, or now issuing
  ipc   : W64              -- its stored address
  npc   : W64              -- the address after it
  pc    : W64              -- the next stored bundle
  next  : Option W512      -- the bundle of a KIND 7 record, to issue next (R358)
  nextNpc : W64
  first : Bool             -- the next bundle is the first since the core began to issue here: its fetch begins the count (R60)
  wait  : Nat              -- idle cycles passed since the last issue
  extra : Nat              -- idle cycles owed before the STAMP count (R132)
  fixed : Option Nat       -- idle cycles owed in all, after a resume (R358)
  leave : Option W64       -- the target of a uiret that ends its handler with this cycle (R138)
  wsAt  : Nat              -- the cycle after that of the latest weight-store load's issue (R291)
  held  : Bool             -- the next bundle is held by a full queue or a SEQ access
  cyc   : Nat              -- unfrozen cycles
  at_   : CycPhase
  frozen : Bool
  bankFrozen : Bool        -- the freeze waits for a bank (R38)
  kcyc  : Nat              -- the cycle at which kernel time stopped (R350)
  kidle : Option Nat       -- idle cycles the kernel's next bundle then owed (R350)
  knext : Option (W512 × W64)  -- the kernel's next bundle where it was that of a KIND 7 record, with its address (R136, R358)
  seq   : Nat              -- operations issued so far
  rseq  : Nat              -- returns at the memory port so far
  frz   : Nat              -- cycles of the present freeze (R420)
  hcyc  : Nat              -- cycles of the present hold (R293)
  brk   : Option Trap      -- a break or syscall that issued in this cycle (R135)
  evs   : List (Nat × W64) -- events of this cycle that dcause does not yet hold (R306)
  deriving DecidableEq, Repr

/-- An acquire (R230, R275 case 11): operations of the core from `after` on are performed after the operations that
another core, or this one, issued before `before`. `skip` is a record whose suspended accesses are not among them (R378). -/
structure Wall where
  after  : Nat
  core   : Nat
  before : Nat
  skip   : Option Nat
  deriving DecidableEq, Repr

/-- The queues and engines of a core (R201, R216, R219). -/
structure Queues where
  pend  : List Pend
  slb   : List Pend        -- snapshot latch bank (R350)
  ld    : List QEnt
  st    : List QEnt
  at_   : List QEnt
  joins : List Join
  cp    : List Copy
  closes : List Close
  openBatch : Nat
  sh    : List Shuf
  walls : List Wall
  arr   : List (BitVec 4 × Nat)  -- arrivals of this cycle with their place in issue order (R226)
  earr  : List (BitVec 4 × Nat)  -- arrivals of engines and other delayed arrivals
  hold  : Option Hold      -- an SY operation that holds issue
  shold : Option Hold      -- an operation of R139 in the S slot that holds issue
  khold : Option Hold      -- the kernel's hold, put aside while a handler runs (R350)
  taking : List (Nat × Nat)  -- queues that still take records of a resume, each with the first cycle in which it takes none (R358)
  redo  : List Redo        -- operations of the S slot that a resume has still to execute (R358)
  ui    : List W64         -- user interrupts raised and not delivered, as UIS words
  deriving DecidableEq, Repr

/-- The matrix engine of a core (R32, R170 to R197). -/
structure Array_ where
  q     : List MxCall
  acyc  : Nat              -- array cycles passed
  free  : Nat              -- first array cycle in which the array can begin another row or word
  comp  : List Completion
  late  : List MxCall      -- calls that have left the queue and whose arrival is still due
  bankDue : Vector Nat 16  -- the cycle from which each bank is landed
  ent   : Sparse 64        -- active half: entries
  mic   : Sparse 64        -- active half: micro-words
  sent  : Sparse 64        -- staging half
  smic  : Sparse 64
  entP  : NatSet           -- poisoned entries and micro-words (R407)
  micP  : NatSet
  sentP : NatSet           -- the same of the staging half (R404)
  smicP : NatSet
  deriving DecidableEq, Repr

/-- The stores of a core (R30, R31, R33, R35, R246). The scratchpad lines that are EMPTY are listed; the others are full. -/
structure Stores where
  bank  : Sparse 1024      -- row r of bank b at 32·b + r
  sl    : Memory           -- byte k of latch l at 16,384·l + k
  spill : Memory
  spad  : Memory
  empty : NatSet
  cwt   : Sparse 256
  bankP : NatSet           -- poisoned rows
  slP   : BitVec 8         -- poisoned halves
  spillP : NatSet          -- poisoned 8-byte units
  spadP : NatSet           -- poisoned lines
  cwtP  : NatSet           -- poisoned entries
  deriving DecidableEq, Repr

/-- A core. -/
structure Core where
  r    : Regs
  w    : Sw
  f    : Front
  q    : Queues
  mx   : Array_
  m    : Stores
  ph   : Vector Phase 4    -- core, bte, barchan, matrix
  rg   : Region
  car  : Option Nat        -- bound caravan
  run  : Option Nat        -- the record running, or stopped here
  sup  : Bool              -- a supervisor serves a stopped stream
  supSelf : Bool           -- it is handling its own cause (R347)
  preempt : Bool           -- a PREEMPT stop is requested by a hold or a retirement (R369, R413)
  expired : Bool           -- SLICE has reached zero (R367, R368)
  seif : Option (W64 × W64)  -- a seif fault report: handle, address (R372)
  own  : Option Nat        -- the context, by the number of its creation, whose words and shadow set the core holds (R10, R137)
  lineCtx : Option (BitVec 12)  -- the context whose lines the scratchpad holds (R246, R248)
  lineCar : Option Nat     -- the caravan whose lines they are, while they are live (R248)
  unbind : Bool            -- the binding has ended, and the engines still work for the caravan (R378)
  deriving DecidableEq, Repr

/-- The registers at reset: g0 all ones (R17), no latch valid (R24), the others zero (log 1). -/
def Regs.reset : Regs where
  s := Vector.replicate 64 0
  v := Vector.replicate 64 0
  g := (Vector.replicate 16 0).set 0 (BitVec.allOnes 128)
  x := Vector.replicate 16 0
  xv := 0
  mp := Vector.replicate 8 0
  sh := Vector.replicate 16 0
  sp := 0
  vp := 0
  gp := 0
  xp := 0
  mpp := 0
  shp := 0

/-- The status words at reset (R127 to R129, R346, R364; log 1). -/
def Sw.reset : Sw where
  pl := 0
  det := false
  uih := false
  sec := false
  flags := 0
  rb := 0
  lc := 0
  ec := 0
  sfc := 0
  flo := 0
  fhi := 0
  fsp := 0
  ovb := 0
  ovp := 0
  htb := 0
  mrow := 0
  aown := 0
  uiv := 0
  uis := 0
  cause := 0
  cdata := 0
  xpc := 0
  xaddr := 0
  ctxid := 0
  ptb := 0
  carea := 0
  slice := 0
  svec := 0
  dcause := Vector.replicate 16 0

/-- The front end at reset: PEB all zero (R29), at the start of cycle 0 (log 5). -/
def Front.reset : Front where
  peb := 0
  hpeb := 0
  ib := 0
  ipc := 0
  npc := 0
  pc := 0
  next := none
  nextNpc := 0
  first := true
  wait := 0
  extra := 0
  fixed := none
  leave := none
  wsAt := 0
  held := false
  cyc := 0
  at_ := .start
  frozen := false
  bankFrozen := false
  kcyc := 0
  kidle := none
  knext := none
  seq := 0
  rseq := 0
  frz := 0
  hcyc := 0
  brk := none
  evs := []

/-- Empty queues (R201). -/
def Queues.reset : Queues where
  pend := []
  slb := []
  ld := []
  st := []
  at_ := []
  joins := []
  walls := []
  cp := []
  closes := []
  openBatch := 0
  sh := []
  arr := []
  earr := []
  hold := none
  shold := none
  khold := none
  taking := []
  redo := []
  ui := []

/-- An idle array with an empty matrix program store (R174). -/
def Array_.reset : Array_ where
  q := []
  acyc := 0
  free := 0
  comp := []
  late := []
  bankDue := Vector.replicate 16 0
  ent := []
  mic := []
  sent := []
  smic := []
  entP := []
  micP := []
  sentP := []
  smicP := []

/-- The stores at reset: scratchpad lines full (R246), the CWT zero (R30), the contents zero (log 1, log 2). -/
def Stores.reset : Stores where
  bank := []
  sl := []
  spill := []
  spad := []
  empty := []
  cwt := []
  bankP := []
  slP := 0
  spillP := []
  spadP := []
  cwtP := []

/-- No phase open (R301). -/
def Phase.reset : Phase := ⟨false, 0, [], []⟩

/-- No region open (R240). -/
def Region.reset : Region := ⟨false, 0, [], false, [], Vector.replicate 5 0, 0, 0⟩

/-- A core after reset. -/
def Core.reset : Core where
  r := .reset
  w := .reset
  f := .reset
  q := .reset
  mx := .reset
  m := .reset
  ph := Vector.replicate 4 .reset
  rg := .reset
  car := none
  run := none
  sup := false
  supSelf := false
  preempt := false
  expired := false
  seif := none
  own := none
  lineCtx := none
  lineCar := none
  unbind := false

end Sys2Proof.Machine
end

