-- ==== Sys2Proof/Machine/Num.lean ====
section
/-! DEFINITION. Exact values, the two roundings and the element formats (R94 to R101), the block sums of the matrix drain
path (R102 to R105), the reduction tree (R106), scales (R108), the special functions (R165, R166) and phasors (R109 to
R117). A value is NaN, an infinity, or (-1)^neg × m × 2^e with m and e exact. -/

namespace Sys2Proof.Machine
open Sys2Proof

/-- A real value, an infinity or NaN; zero keeps its sign (R97, R100). -/
inductive X where
  | nan
  | inf (neg : Bool)
  | fin (neg : Bool) (m : Nat) (e : Int)
  deriving DecidableEq, Repr

namespace X

/-- An exact integer. -/
def ofInt (i : Int) : X := .fin (i < 0) i.natAbs 0

/-- +0. -/
def zero : X := .fin false 0 0

/-- The opposite value; NaN stays NaN. -/
def negate : X → X
  | .nan => .nan
  | .inf s => .inf (!s)
  | .fin s m e => .fin (!s) m e

/-- The value without its sign. -/
def abs : X → X
  | .nan => .nan
  | .inf _ => .inf false
  | .fin _ m e => .fin false m e

/-- The sign. -/
def neg : X → Bool
  | .nan => false
  | .inf s => s
  | .fin s _ _ => s

/-- Whether the value is NaN. -/
def isNan : X → Bool
  | .nan => true
  | _ => false

/-- Whether the value is an infinity. -/
def isInf : X → Bool
  | .inf _ => true
  | _ => false

/-- Whether the value is a zero. -/
def isZero : X → Bool
  | .fin _ 0 _ => true
  | _ => false

/-- A magnitude as a multiple of 2^e0, for e0 at or below its exponent. -/
def scaled (m : Nat) (e e0 : Int) : Nat := m * 2 ^ (e - e0).toNat

/-- A signed magnitude. -/
def signed (s : Bool) (m : Nat) : Int := if s then -(m : Int) else m

/-- The exact sum of two finite values; an exact zero is +0 unless both addends are −0 (R100). -/
def addFin (s1 : Bool) (m1 : Nat) (e1 : Int) (s2 : Bool) (m2 : Nat) (e2 : Int) : X :=
  let e0 := min e1 e2
  let v := signed s1 (scaled m1 e1 e0) + signed s2 (scaled m2 e2 e0)
  if v = 0 then .fin (s1 && s2 && m1 == 0 && m2 == 0) 0 0 else .fin (v < 0) v.natAbs e0

/-- The exact sum (R101): ∞ − ∞ is invalid. -/
def add : X → X → X
  | .nan, _ => .nan
  | _, .nan => .nan
  | .inf a, .inf b => if a = b then .inf a else .nan
  | .inf a, _ => .inf a
  | _, .inf b => .inf b
  | .fin s1 m1 e1, .fin s2 m2 e2 => addFin s1 m1 e1 s2 m2 e2

/-- The exact difference: a − b counts a subtracted +0 as −0 (R100). -/
def sub (a b : X) : X := a.add b.negate

/-- The exact product (R101): 0 × ∞ is invalid. -/
def mul : X → X → X
  | .nan, _ => .nan
  | _, .nan => .nan
  | .inf a, .inf b => .inf (a != b)
  | .inf a, .fin b m _ => if m = 0 then .nan else .inf (a != b)
  | .fin a m _, .inf b => if m = 0 then .nan else .inf (a != b)
  | .fin s1 m1 e1, .fin s2 m2 e2 => .fin (s1 != s2) (m1 * m2) (e1 + e2)

/-- Comparison of two values that are not NaN; −0 equals +0 (R153). -/
def cmp : X → X → Ordering
  | .inf a, .inf b => if a = b then .eq else if a then .lt else .gt
  | .inf a, _ => if a then .lt else .gt
  | _, .inf b => if b then .gt else .lt
  | .fin s1 m1 e1, .fin s2 m2 e2 =>
    let e0 := min e1 e2
    compare (signed s1 (scaled m1 e1 e0)) (signed s2 (scaled m2 e2 e0))
  | _, _ => .eq

/-- a = b (R153). -/
def eqv (a b : X) : Bool := !a.isNan && !b.isNan && a.cmp b == .eq
/-- a < b (R153). -/
def lt (a b : X) : Bool := !a.isNan && !b.isNan && a.cmp b == .lt

/-- The order of vmin, vmax and the clamp: −0 below +0 (R145, R151). -/
def below (a b : X) : Bool := a.cmp b == .lt || (a.cmp b == .eq && a.isZero && a.neg && !b.neg)

/-- The smaller value; NaN if either is (R151). -/
def min2 (a b : X) : X := if a.isNan || b.isNan then .nan else if b.below a then b else a
/-- The larger value; NaN if either is (R151). -/
def max2 (a b : X) : X := if a.isNan || b.isNan then .nan else if a.below b then b else a

/-- floor of a finite value as an integer multiple of 2^0. -/
def floorInt : X → Int
  | .fin s m e =>
    if 0 ≤ e then signed s (m * 2 ^ e.toNat)
    else signed s m / (2 ^ (-e).toNat : Int)
  | _ => 0

/-- Whether a finite value is an integer. -/
def isInt : X → Bool
  | .fin _ m e => 0 ≤ e || m % 2 ^ (-e).toNat == 0
  | _ => false

end X

/-- floor(log2 n) for n > 0. -/
abbrev log2 (n : Nat) : Nat := Nat.log2 n

/-- The quotient n / 2^k to the nearest integer, ties to even, or its integer part (R98, R99). -/
def quantise (nearest : Bool) (n k : Nat) : Nat :=
  let q := n / 2 ^ k
  let r := n % 2 ^ k
  if !nearest || k = 0 then q
  else if r < 2 ^ (k - 1) then q
  else if 2 ^ (k - 1) < r then q + 1
  else q + q % 2

/-- RNE(x) and RTZ(x) to an integer, for a finite x (R98, R99). -/
def X.roundInt (nearest : Bool) : X → Int
  | .fin s m e => X.signed s (if 0 ≤ e then m * 2 ^ e.toNat else quantise nearest m (-e).toNat)
  | _ => 0

/-- The parameters of a floating format (R96): width, mantissa bits, bias, exponent and mantissa quotient of the greatest
finite value, whether it has infinities, its canonical NaN. -/
structure FloatFmt where
  w : Nat
  mant : Nat
  bias : Nat
  maxK : Int
  maxQ : Nat
  hasInf : Bool
  nan : Nat
  deriving DecidableEq, Repr

/-- R96. -/
def floatFmt : Fmt → FloatFmt
  | .f16 => ⟨16, 10, 15, 15, 2047, true, 0x7E00⟩
  | .bf16 => ⟨16, 7, 127, 127, 255, true, 0x7FC0⟩
  | .e4m3 => ⟨8, 3, 7, 8, 14, false, 0x7F⟩
  | _ => ⟨32, 23, 127, 127, 0xFFFFFF, true, 0x7FC00000⟩

namespace FloatFmt

/-- The sign bit in place. -/
def signBit (F : FloatFmt) (s : Bool) : Nat := if s then 2 ^ (F.w - 1) else 0
/-- The code of an infinity. -/
def inf (F : FloatFmt) (s : Bool) : Nat := F.signBit s + (2 ^ (F.w - 1 - F.mant) - 1) * 2 ^ F.mant
/-- The code of the greatest finite value. -/
def greatest (F : FloatFmt) (s : Bool) : Nat :=
  F.signBit s + (F.maxK + F.bias).toNat * 2 ^ F.mant + (F.maxQ - 2 ^ F.mant)

/-- The value of a code (R96). -/
def toX (F : FloatFmt) (c : Nat) : X :=
  let s := c / 2 ^ (F.w - 1) % 2 == 1
  let m := c % 2 ^ F.mant
  let e := c / 2 ^ F.mant % 2 ^ (F.w - 1 - F.mant)
  if e = 2 ^ (F.w - 1 - F.mant) - 1 ∧ F.hasInf then (if m = 0 then .inf s else .nan)
  else if c % 2 ^ (F.w - 1) = 2 ^ (F.w - 1) - 1 then .nan
  else if e = 0 then .fin s m (1 - F.bias - F.mant)
  else .fin s (2 ^ F.mant + m) (e - F.bias - F.mant)

/-- The candidate of R98 or R99 for a non-zero finite magnitude: its exponent k and its quotient q with value
q × 2^(k−M). -/
def candidate (F : FloatFmt) (nearest : Bool) (m : Nat) (e : Int) : Int × Nat :=
  let k := max ((log2 m : Int) + e) (1 - F.bias)
  let u := k - F.mant
  let q := if u ≤ e then m * 2 ^ (e - u).toNat else quantise nearest m (u - e).toNat
  if q = 2 ^ (F.mant + 1) then (k + 1, 2 ^ F.mant) else (k, q)

/-- Whether a candidate exceeds the greatest finite value. -/
def exceeds (F : FloatFmt) (c : Int × Nat) : Bool := F.maxK < c.1 || (c.1 == F.maxK && F.maxQ < c.2)

/-- The code of a candidate that is in range. -/
def codeOf (F : FloatFmt) (s : Bool) (c : Int × Nat) : Nat :=
  F.signBit s + (if c.2 < 2 ^ F.mant then c.2 else (c.1 + F.bias).toNat * 2 ^ F.mant + (c.2 - 2 ^ F.mant))

/-- RNE(x, F) (R98). -/
def rne (F : FloatFmt) : X → Nat
  | .nan => F.nan
  | .inf s => if F.hasInf then F.inf s else F.nan
  | .fin s 0 _ => F.signBit s
  | .fin s m e =>
    let c := F.candidate true m e
    if F.exceeds c then (if F.hasInf then F.inf s else F.nan) else F.codeOf s c

/-- RTZ(x, F) (R99). -/
def rtz (F : FloatFmt) : X → Nat
  | .nan => F.nan
  | .inf s => if F.hasInf then F.inf s else F.nan
  | .fin s 0 _ => F.signBit s
  | .fin s m e =>
    let c := F.candidate false m e
    if F.exceeds c then F.greatest s else F.codeOf s c

/-- Whether SAT applies saturation to a value brought into F (R146). -/
def saturates (F : FloatFmt) : X → Bool
  | .inf _ => !F.hasInf
  | .fin _ 0 _ => false
  | .fin _ m e => F.exceeds (F.candidate true m e)
  | .nan => false

end FloatFmt

/-- f32. -/
def f32 : FloatFmt := floatFmt .f32
/-- RNE(x, f32) as a value. -/
def rne32 (x : X) : X := f32.toX (f32.rne x)

/-! ### Integers and the destination format -/

/-- A pattern read as an integer of a format (R95); n and phasor formats are unsigned. -/
def intOf (f : Fmt) (p : Nat) : Int :=
  let p := p % 2 ^ f.width
  if f.isI && 2 ^ (f.width - 1) ≤ p then (p : Int) - 2 ^ f.width else p

/-- The pattern of an integer reduced modulo 2^w (R95). -/
def wrapTo (w : Nat) (i : Int) : Nat := (i % (2 ^ w : Int)).toNat

/-- Least and greatest value of an integer format (R95). -/
def intMin (f : Fmt) : Int := if f.isI then -(2 ^ (f.width - 1) : Int) else 0
/-- Greatest value of an integer format (R95). -/
def intMax (f : Fmt) : Int := if f.isI then 2 ^ (f.width - 1) - 1 else 2 ^ f.width - 1

/-- A pattern brought into a format, and whether saturation was applied to it (R72, R146). -/
structure Brought where
  pat : Nat
  sat : Bool
  deriving DecidableEq, Repr

/-- An exact integer brought into an integer format under SAT (R72, R95). -/
def bringInt (f : Fmt) (sm : Sat) (i : Int) : Brought :=
  let out := i < intMin f || intMax f < i
  if sm != .none && out then ⟨wrapTo f.width (if i < 0 then intMin f else intMax f), true⟩
  else ⟨wrapTo f.width i, false⟩

/-- A value brought into a num format under SAT (R146). -/
def bring (f : Fmt) (sm : Sat) (x : X) : Brought :=
  if f.isFlt then
    let F := floatFmt f
    if sm != .none && F.saturates x then ⟨F.greatest x.neg, true⟩ else ⟨F.rne x, false⟩
  else
    match x with
    | .nan => ⟨0, sm != .none⟩
    | .inf s => ⟨wrapTo f.width (if s then intMin f else intMax f), sm != .none⟩
    | .fin _ _ _ => bringInt f sm (x.roundInt true)

/-- A pattern of a num format as an exact value (R95, R96). -/
def numOf (f : Fmt) (p : Nat) : X := if f.isFlt then (floatFmt f).toX p else .ofInt (intOf f p)

/-- Bits of a number from a position: `w` bits. -/
def field (n pos w : Nat) : Nat := n / 2 ^ pos % 2 ^ w

/-! ### Bit counts -/

/-- Ones in the low w bits. -/
def popcount : Nat → Nat → Nat
  | 0, _ => 0
  | w + 1, n => n % 2 + popcount w (n / 2)

/-- Leading zeros of a w-bit pattern. -/
def leadingZeros (w n : Nat) : Nat := if n % 2 ^ w = 0 then w else w - 1 - log2 (n % 2 ^ w)

/-! ### Reductions -/

/-- One level of the pairwise tree of R106. -/
def treeLevel : List X → List X
  | a :: b :: rest => rne32 (a.add b) :: treeLevel rest
  | xs => xs

/-- The pairwise tree of R106 over a list whose length is a power of two; `fuel` bounds its levels. -/
def treeSum : Nat → List X → X
  | _, [] => .zero
  | _, [x] => x
  | 0, x :: _ => x
  | fuel + 1, xs => treeSum fuel (treeLevel xs)

/-- The cross-lane maximum or minimum (R107, R158). -/
def extreme (f : X → X → X) : List X → X
  | [] => .zero
  | x :: xs => xs.foldl f x

/-! ### Roots, powers and logarithms -/

/-- Integer square root by bits, from bit b − 1 down. -/
def isqrtFrom : Nat → Nat → Nat → Nat
  | 0, _, r => r
  | b + 1, n, r =>
    let r' := r + 2 ^ b
    isqrtFrom b n (if r' * r' ≤ n then r' else r)

/-- floor(√n). -/
def isqrt (n : Nat) : Nat := isqrtFrom (log2 n / 2 + 1) n 0

/-- A magnitude known to lie strictly between m and m + 1 units (sticky), or to be exactly m. -/
def stickyFin (s : Bool) (m : Nat) (e : Int) (inexact : Bool) : X :=
  .fin s (2 * m + (if inexact then 1 else 0)) (e - 1)

/-- 1 / a (R165). -/
def rcpX : X → X
  | .nan => .nan
  | .inf s => .fin s 0 0
  | .fin s 0 _ => .inf s
  | .fin s m e =>
    let n := 2 ^ (log2 m + 60)
    stickyFin s (n / m) (-e - (log2 m + 60)) (n % m != 0)

/-- √a (R165). -/
def sqrtX : X → X
  | .nan => .nan
  | .inf s => if s then .nan else .inf false
  | .fin s 0 e => .fin s 0 e
  | .fin s m e =>
    if s then .nan
    else
      let n := m * 2 ^ (if e % 2 = 0 then 80 else 81)
      let e' := if e % 2 = 0 then e - 80 else e - 81
      let r := isqrt n
      stickyFin false r (e' / 2) (r * r != n)

/-- 1 / √a (R165). -/
def rsqrtX : X → X
  | .nan => .nan
  | .inf s => if s then .nan else .fin false 0 0
  | .fin s 0 _ => .inf s
  | .fin s m e =>
    if s then .nan
    else
      -- 1/√(m·2^e) = √(2^(2k)/m') × 2^(−k−e'/2) with m' and e' even
      let m' := if e % 2 = 0 then m else 2 * m
      let e' := if e % 2 = 0 then e else e - 1
      let n := 2 ^ 160
      let r := isqrt (n / m')
      stickyFin false r (-80 - e' / 2) (r * r * m' != n)

/-- Bits of fixed point in the two series below. -/
def seriesBits : Nat := 256

/-- Multiplies a fixed-point 2^f, bit by bit of f: `c` is the current root 2^(2^-i). -/
def exp2Bits : Nat → Nat → Nat → Nat → Nat
  | 0, _, _, acc => acc
  | n + 1, f, c, acc =>
    let acc' := if f / 2 ^ n % 2 = 1 then acc * c / 2 ^ seriesBits else acc
    exp2Bits n f (isqrt (c * 2 ^ seriesBits)) acc'

/-- 2^a (R165). A fraction below 2^-60 of a unit only moves the result off 1 by less than any tie (log 17). -/
def exp2X : X → X
  | .nan => .nan
  | .inf s => if s then .fin false 0 0 else .inf false
  | .fin _ 0 _ => .fin false 1 0
  | .fin s m e =>
    if 10 < (log2 m : Int) + e then (if s then .fin false 1 (-2000) else .fin false 1 2000)
    else
      let v := X.signed s (if -60 ≤ e then m * 2 ^ (e + 60).toNat else m / 2 ^ (-60 - e).toNat)
      let n := v / (2 ^ 60 : Int)
      let f := (v % (2 ^ 60 : Int)).toNat
      let lost := e < -60 && m % 2 ^ (-60 - e).toNat != 0
      if f = 0 ∧ !lost then .fin false 1 n
      else if f = 0 ∧ s then .fin false (2 ^ 130 - 1) (n - 130)
      else stickyFin false (exp2Bits 60 f (isqrt (2 * 2 ^ (2 * seriesBits))) (2 ^ seriesBits)) (n - seriesBits) true

/-- Bits of log2 of a fixed-point x in [1, 2), by repeated squaring. -/
def log2Bits : Nat → Nat → Nat → Nat
  | 0, _, acc => acc
  | n + 1, x, acc =>
    let y := x * x / 2 ^ seriesBits
    if 2 ^ (seriesBits + 1) ≤ y then log2Bits n (y / 2) (2 * acc + 1) else log2Bits n y (2 * acc)

/-- log2 a (R165); log2 1 is +0. -/
def log2X : X → X
  | .nan => .nan
  | .inf s => if s then .nan else .inf false
  | .fin _ 0 _ => .inf true
  | .fin s m e =>
    if s then .nan
    else
      let k := (log2 m : Int) + e
      if m = 2 ^ log2 m then .ofInt k
      else
        let v := k * 2 ^ 110 + log2Bits 110 (m * 2 ^ (seriesBits - log2 m)) 0
        if 0 ≤ v then stickyFin false v.toNat (-110) true else stickyFin true (-v - 1).toNat (-110) true

/-- A constant of R166 as a value. -/
def c32 (c : Nat) : X := f32.toX c

/-- sincos of R166 for a finite argument in range: (sine, cosine) as f32 values, before the quadrant. -/
def sincosCore (x : X) : Int × X × X :=
  let k := (x.mul (c32 0x3F22F983)).roundInt true
  let kx := X.ofInt k
  let step := fun (y : X) (p : Nat) => rne32 (y.sub (kx.mul (c32 p)))
  let y := step (step (step x 0x3FC90FDA) 0x33A22168) 0x27C234C4
  let fma := fun (a b c : X) => rne32 ((a.mul b).add c)
  let z := rne32 (y.mul y)
  let ps := fma z (fma z (c32 0xB9500D01) (c32 0x3C088889)) (c32 0xBE2AAAAB)
  let u := rne32 (y.mul z)
  let sv := fma u ps y
  let pq := fma z (fma z (c32 0xBAB60B61) (c32 0x3D2AAAAB)) (c32 0xBF000000)
  let cv := fma z pq (.ofInt 1)
  (k, sv, cv)

/-- vsin and vcos (R166): the value, and whether the argument was out of range. -/
def sincosX (sine : Bool) (x : X) : X × Bool :=
  match x with
  | .nan | .inf _ => (.nan, false)
  | .fin _ 0 _ => (if sine then x else .ofInt 1, false)
  | .fin _ m e =>
    if (X.fin false 1 18).lt (.fin false m e) then (.nan, true)
    else
      let (k, sv, cv) := sincosCore x
      let q := (k % 4 + (if sine then 0 else 1)) % 4
      ((if q = 0 then sv else if q = 1 then cv else if q = 2 then sv.negate else cv.negate), false)

/-! ### Phasors -/

/-- COS[k] of R113 for k in 0..256; the rest of the table follows by symmetry. -/
def cosQuarter : List Nat :=
  [16384, 16384, 16383, 16381, 16379, 16376, 16373, 16369, 16364, 16359, 16353, 16347, 16340, 16332, 16324, 16315] ++
  [16305, 16295, 16284, 16273, 16261, 16248, 16235, 16221, 16207, 16192, 16176, 16160, 16143, 16125, 16107, 16088] ++
  [16069, 16049, 16029, 16008, 15986, 15964, 15941, 15917, 15893, 15868, 15843, 15817, 15791, 15763, 15736, 15707] ++
  [15679, 15649, 15619, 15588, 15557, 15525, 15493, 15460, 15426, 15392, 15357, 15322, 15286, 15250, 15213, 15175] ++
  [15137, 15098, 15059, 15019, 14978, 14937, 14896, 14854, 14811, 14768, 14724, 14680, 14635, 14589, 14543, 14497] ++
  [14449, 14402, 14354, 14305, 14256, 14206, 14155, 14104, 14053, 14001, 13949, 13896, 13842, 13788, 13733, 13678] ++
  [13623, 13567, 13510, 13453, 13395, 13337, 13279, 13219, 13160, 13100, 13039, 12978, 12916, 12854, 12792, 12729] ++
  [12665, 12601, 12537, 12472, 12406, 12340, 12274, 12207, 12140, 12072, 12004, 11935, 11866, 11797, 11727, 11656] ++
  [11585, 11514, 11442, 11370, 11297, 11224, 11151, 11077, 11003, 10928, 10853, 10778, 10702, 10625, 10549, 10471] ++
  [10394, 10316, 10238, 10159, 10080, 10001, 9921, 9841, 9760, 9679, 9598, 9516, 9434, 9352, 9269, 9186] ++
  [9102, 9019, 8935, 8850, 8765, 8680, 8595, 8509, 8423, 8337, 8250, 8163, 8076, 7988, 7900, 7812] ++
  [7723, 7635, 7545, 7456, 7366, 7276, 7186, 7096, 7005, 6914, 6823, 6731, 6639, 6547, 6455, 6363] ++
  [6270, 6177, 6084, 5990, 5897, 5803, 5708, 5614, 5520, 5425, 5330, 5235, 5139, 5044, 4948, 4852] ++
  [4756, 4660, 4563, 4467, 4370, 4273, 4176, 4078, 3981, 3883, 3786, 3688, 3590, 3492, 3393, 3295] ++
  [3196, 3098, 2999, 2900, 2801, 2702, 2603, 2503, 2404, 2305, 2205, 2105, 2006, 1906, 1806, 1706] ++
  [1606, 1506, 1406, 1306, 1205, 1105, 1005, 904, 804, 704, 603, 503, 402, 302, 201, 101] ++
  [0]

/-- COS[k] of R113. -/
def cosTab (k : Nat) : Int :=
  let k := k % 1024
  let q := fun (j : Nat) => ((cosQuarter.getD j 0 : Nat) : Int)
  if k ≤ 256 then q k
  else if k ≤ 512 then -(q (512 - k))
  else if k ≤ 768 then -(q (k - 512))
  else q (1024 - k)

/-- SIN[k] of R113. -/
def sinTab (k : Nat) : Int := cosTab (k + 768)

/-- A PH16 or PH8 pattern as (undefined, PH16 angle), a PH8 widened (R109, R110). -/
def phOf (f : Fmt) (p : Nat) : Bool × Nat :=
  if f == .ph8 then (p % 2 == 1, p / 2 % 128 * 256) else (p % 2 == 1, p / 2 % 32768)

/-- The pattern of a phasor in a format: narrowed under R110, undefined values canonical (R109, R110). -/
def phTo (f : Fmt) (u : Bool) (ang : Nat) : Nat :=
  if u then 1 else if f == .ph8 then quantise true (ang % 32768) 8 % 128 * 2 else ang % 32768 * 2

/-- Angle sum (`sub` false) or difference (R112). -/
def phComb (sub : Bool) (fa fb fd : Fmt) (a b : Nat) : Nat :=
  let (ua, aa) := phOf fa a
  let (ub, ab) := phOf fb b
  phTo fd (ua || ub) (if sub then aa + 32768 - ab else aa + ab)

/-- The relations of R117. -/
inductive PhaseOrder where
  | unordered | equal | before | opposite | after
  deriving DecidableEq, Repr

/-- phase_order of R117. -/
def phaseOrder (fa fb : Fmt) (a b : Nat) : PhaseOrder :=
  let (ua, aa) := phOf fa a
  let (ub, ab) := phOf fb b
  if ua || ub then .unordered
  else
    let d := (ab + 32768 - aa) % 32768
    if d = 0 then .equal else if d < 16384 then .before else if d = 16384 then .opposite else .after

/-- One term of R115: (cosine, sine, count). Both elements PH16. -/
def phTerm (a b : Nat) : Int × Int × Nat :=
  if a % 2 = 0 ∧ b % 2 = 0 then
    let k := (a / 2 + b / 2) % 32768 / 32
    (cosTab k, sinTab k, 1)
  else (0, 0, 0)

/-- phasor_step of R115 on the 128-bit pattern of an accumulator (R114); bits [127:97] come out zero. -/
def phStep (acc : Nat) (terms : List (Nat × Nat)) : Nat :=
  let s := terms.foldl (fun (t : Int × Int × Nat) ab =>
    let u := phTerm ab.1 ab.2
    (t.1 + u.1, t.2.1 + u.2.1, t.2.2 + u.2.2)) (0, 0, 0)
  let x := intOf .i32 (field acc 0 32) + s.1
  let y := intOf .i32 (field acc 32 32) + s.2.1
  let n := field acc 64 32 + s.2.2
  let out := fun (v : Int) => v < intMin .i32 || intMax .i32 < v
  let ovf := field acc 96 1 == 1 || out x || out y || decide (2 ^ 32 ≤ n)
  wrapTo 32 x + wrapTo 32 y * 2 ^ 32 + n % 2 ^ 32 * 2 ^ 64 + bit ovf * 2 ^ 96

/-- The first n binary digits of the angle of (x, y) in turns, by squaring the complex number; appended to acc. -/
def turnBits : Nat → Int → Int → Nat → Nat
  | 0, _, _, acc => acc
  | n + 1, x, y, acc =>
    let b := if y < 0 ∨ (y = 0 ∧ x < 0) then 1 else 0
    turnBits n (x * x - y * y) (2 * x * y) (2 * acc + b)

/-- The largest q below 2^b with (q × n)² ≤ lim, by bits (R116). -/
def coherence : Nat → Nat → Nat → Nat → Nat
  | 0, _, _, q => q
  | b + 1, n, lim, q =>
    let q' := q + 2 ^ b
    coherence b n lim (if (q' * n) * (q' * n) ≤ lim then q' else q)

/-- resultant of R116 for an accumulator pattern. -/
def resultant (acc : Nat) : Nat :=
  let x := intOf .i32 (field acc 0 32)
  let y := intOf .i32 (field acc 32 32)
  let n := field acc 64 32
  if field acc 96 1 = 1 ∨ n = 0 ∨ (x = 0 ∧ y = 0) then 0x00010000
  else
    let a := (turnBits 16 x y 0 + 1) / 2 % 32768
    a * 2 * 65536 + coherence 16 n (16 * (x * x + y * y).toNat) 0

/-! ### Block sums -/

/-- One element of an FP8 K-block (R102): the f32 code from the products and the bank value, if it is accumulated. -/
def fp8Block (prods : List (Nat × Nat)) (bank : Option Nat) : Nat :=
  let F := floatFmt .e4m3
  let start : X := match bank with
    | some c => f32.toX c
    | none => .zero
  let s := prods.foldl (fun (s : X) p => s.add ((F.toX p.1).mul (F.toX p.2))) .zero
  match start.add s with
  | .fin _ 0 _ => 0
  | x => f32.rtz x

/-- One element of an INT8 K-block (R103). -/
def int8Block (fa fb : Fmt) (prods : List (Nat × Nat)) (bank : Option Nat) : Nat :=
  wrapTo 32 (prods.foldl (fun (s : Int) p => s + intOf fa p.1 * intOf fb p.2)
    (match bank with | some c => (c : Int) | none => 0))

/-- floor of a magnitude in units of 2^u, as a multiple of that unit (R104). -/
def truncTo (m : Nat) (e u : Int) : Nat := if u ≤ e then m * 2 ^ (e - u).toNat else m / 2 ^ (u - e).toNat

/-- bf16_block of R104 on f32 accumulator code c. -/
def bf16Block (c : Nat) (prods : List (Nat × Nat)) : Nat :=
  let B := floatFmt .bf16
  let ps := prods.map fun p => (B.toX p.1).mul (B.toX p.2)
  let cx := f32.toX c
  let pos := ps.any (· == .inf false)
  let neg := ps.any (· == .inf true)
  if cx.isNan || ps.any X.isNan || (pos && neg) then 0x7FC00000
  else if pos || neg then (if cx == .inf (!neg) then 0x7FC00000 else f32.inf neg)
  else if cx.isInf then c
  else
    let emax := ps.foldl (fun (o : Option Int) p =>
      match p with
      | .fin _ (m + 1) e =>
        let k := (log2 (m + 1) : Int) + e
        some (match o with | some j => max j k | none => k)
      | _ => o) none
    match emax with
    | none => match cx with
      | .fin _ 0 _ => 0
      | x => f32.rtz x
    | some k =>
      let u := k - 40
      let s := ps.foldl (fun (s : Int) p =>
        match p with
        | .fin sg m e => s + X.signed sg (truncTo m e u)
        | _ => s) 0
      match cx.add (.fin (s < 0) s.natAbs u) with
      | .fin _ 0 _ => 0
      | x => f32.rtz x

/-- One element of a BF16 block of 32·k products (R104, R191): blocks of 32 in rising k. -/
def bf16Blocks (fuel : Nat) (c : Nat) (prods : List (Nat × Nat)) : Nat :=
  match fuel, prods with
  | 0, _ => c
  | _, [] => c
  | n + 1, ps => bf16Blocks n (bf16Block c (ps.take 32)) (ps.drop 32)

/-- A drain of an f32 element to bf16 or e4m3 (R105); f32 and i32 are copied. -/
def drainTo (fd : Fmt) (c : Nat) : Nat :=
  match fd with
  | .bf16 | .e4m3 => (floatFmt fd).rtz (f32.toX c)
  | _ => c

end Sys2Proof.Machine
end

