-- ==== Sys2Proof/Machine/Operands.lean ====
section
/-! DEFINITION. Operands of the S, VA and VB slots: rotating names (R21, R22), the shadow set of a handler (R137), source
fields and constants (R64, R65), guards (R17, R18), latches (R24, R25), modifiers (R118, R144) and the elements of a vector
operand (R94, R143). -/

namespace Sys2Proof.Machine
open Sys2Proof

/-- The physical number of a scalar or vector name (R21). -/
def physReg (rb : BitVec 4) (n : BitVec 6) : BitVec 6 :=
  if 48 ≤ n.toNat then BitVec.ofNat 6 (48 + (n.toNat - 48 + rb.toNat) % 16) else n

/-- The physical number of a guard name (R21). -/
def physGuard (rb : BitVec 4) (n : BitVec 4) : BitVec 4 :=
  if 8 ≤ n.toNat then BitVec.ofNat 4 (8 + (n.toNat - 8 + rb.toNat) % 8) else n

/-- A user-interrupt handler runs: its scalar names mean the shadow set (R137). -/
def Core.inHandler (c : Core) : Bool := c.w.uih && c.w.pl == 0

namespace Core

/-- The scalar register a name designates (R21, R137). -/
def readS (c : Core) (n : BitVec 6) : W64 :=
  if c.inHandler then c.r.sh[(n.setWidth 4).toFin] else c.r.s[(physReg c.w.rb n).toFin]

/-- The vector register a name designates (R21). -/
def readV (c : Core) (n : BitVec 6) : W1024 := c.r.v[(physReg c.w.rb n).toFin]

/-- The guard a name designates; g0 reads all ones (R17, R21). -/
def readG (c : Core) (n : BitVec 4) : W128 :=
  if n = 0 then BitVec.allOnes 128 else c.r.g[(physGuard c.w.rb n).toFin]

/-- A bypass latch (R25). -/
def readX (c : Core) (n : BitVec 4) : W1024 := c.r.x[n.toFin]

/-- The destination a scalar name designates (R21, R137). -/
def destS (c : Core) (n : BitVec 6) (w32 : Bool) : Dest :=
  if c.inHandler then .sh (n.setWidth 4).toFin w32 else .s (physReg c.w.rb n).toFin w32

/-- The guard value G of R18: inverted when I is 1. -/
def guardVal (c : Core) (g : Guarding) : W128 := if g.inv then ~~~(c.readG g.g) else c.readG g.g

/-- Whether an operation outside VA and VB executes: G[0] = 1 (R18). -/
def executes (c : Core) (g : Guarding) : Bool := (c.guardVal g).getLsbD 0

end Core

/-- The value of a constant source for an operand of a format, as the element's pattern (R65). An operand without a
format takes the 64 bits of the signed constant (log 18). -/
def constPat (f : Fmt) (k : BitVec 32) (imm : BitVec 12) (isImm : Bool) : Nat :=
  match f with
  | .i8 | .i16 | .i32 | .i64 => wrapTo f.width (if isImm then imm.toInt else k.toInt)
  | .n8 | .n16 | .n32 | .n64 => (if isImm then imm.toNat else k.toNat) % 2 ^ f.width
  | .f32 | .f16 | .bf16 =>
    if isImm then (floatFmt f).rne (.ofInt imm.toInt) else k.toNat % 2 ^ f.width
  | .e4m3 =>
    if isImm then
      (let x := X.ofInt imm.toInt
       if 448 < imm.toInt.natAbs then (floatFmt .e4m3).greatest x.neg else (floatFmt .e4m3).rne x)
    else k.toNat % 256
  | .ph8 => (if isImm then imm.toNat else k.toNat) % 256
  | .ph16 => (if isImm then imm.toNat else k.toNat) % 65536
  | .phc32 => if isImm then imm.toNat else k.toNat
  | .none => wrapTo 64 (if isImm then imm.toInt else k.toInt)

/-- The 64 bits that a source field selects for an S operand or a scalar operand of a vector operation (R25, R64, R65,
R118, R143). -/
def Core.scalarSrc (c : Core) (o : AluOp) (f : Fmt) (x : Src) : W64 :=
  match x with
  | .reg n => c.readS n
  | .zero => 0
  | .imm => BitVec.ofNat 64 (constPat f 0 o.imm true)
  | .k0 => BitVec.ofNat 64 (constPat f o.cw.k0 0 false)
  | .k1 => BitVec.ofNat 64 (constPat f o.cw.k1 0 false)
  | .latch n => (c.readX n).setWidth 64

/-- |x| and −x as a PRE byte asks on an exact integer (R118, R144). -/
def preInt (p : Pre) (i : Int) : Int :=
  let i := if p.abs then (i.natAbs : Int) else i
  if p.neg then -i else i

/-- A PRE byte on a floating pattern: ABS clears the sign bit, NEG inverts it (R144). -/
def preFloat (w : Nat) (p : Pre) (n : Nat) : Nat :=
  let s := n / 2 ^ (w - 1) % 2
  let s' := if p.abs then 0 else s
  let s'' := if p.neg then 1 - s' else s'
  n % 2 ^ (w - 1) + s'' * 2 ^ (w - 1)

/-- An S operand as an exact integer (R118). -/
def Core.intSrc (c : Core) (o : AluOp) (f : Fmt) (p : Pre) (x : Src) : Int :=
  preInt p (intOf f (c.scalarSrc o f x).toNat)

/-- A vector source: the operand's bits, or the one pattern that a constant supplies to every element. -/
inductive VSrc where
  | bits (n : Nat)
  | every (pat : Nat)
  deriving DecidableEq, Repr

/-- A vector source field for an operand of a format; a latch is read as a register (R25, R143). -/
def Core.vecSrc (c : Core) (o : AluOp) (f : Fmt) (x : Src) : VSrc :=
  match x with
  | .reg n => .bits (c.readV n).toNat
  | .zero => .every 0
  | .imm => .every (constPat f 0 o.imm true)
  | .k0 => .every (constPat f o.cw.k0 0 false)
  | .k1 => .every (constPat f o.cw.k1 0 false)
  | .latch n => .bits (c.readX n).toNat

/-- The pattern of element j of a vector source, with BC applied (R143, R144). -/
def eltRaw (wE : Nat) (f : Fmt) (p : Pre) (x : VSrc) (j : Nat) : Nat :=
  match x with
  | .every v => v
  | .bits n => field n (eltStride wE f.width p.ext * (if p.bc then p.el.toNat else j)) f.width

/-- Element j as a pattern, modifiers applied (R144). -/
def eltPat (wE : Nat) (f : Fmt) (p : Pre) (x : VSrc) (j : Nat) : Nat :=
  let n := eltRaw wE f p x j
  if f.isFlt then preFloat f.width p n
  else if f.isI then wrapTo f.width (preInt p (intOf f n)) else n

/-- Element j as an exact integer (R144). -/
def eltInt (wE : Nat) (f : Fmt) (p : Pre) (x : VSrc) (j : Nat) : Int := preInt p (intOf f (eltRaw wE f p x j))

/-- Element j as an exact value (R143, R144). -/
def eltNum (wE : Nat) (f : Fmt) (p : Pre) (x : VSrc) (j : Nat) : X :=
  if f.isFlt then numOf f (eltPat wE f p x j) else .ofInt (eltInt wE f p x j)

/-- The bits of elements packed at width w from bit 0 (R94). -/
def packElts (w : Nat) : List Nat → Nat
  | [] => 0
  | e :: es => e + 2 ^ w * packElts w es

/-- A result v in format FD extended to 64 bits (R119). -/
def extend64 (f : Fmt) (pat : Nat) : W64 := BitVec.ofInt 64 (intOf f pat)

/-- The byte mask of the lowest n lanes. -/
def lanes (n : Nat) : W128 := BitVec.ofNat 128 (2 ^ n - 1)

/-- Bytes under a byte mask: lane i of the new value where bit i is set (R18). -/
def mergeBytes (mask : W128) (new old : W1024) : W1024 :=
  BitVec.ofNat 1024 (natOf ((List.range 128).map fun i =>
    if mask.getLsbD i then new.extractLsb' (8 * i) 8 else old.extractLsb' (8 * i) 8))

/-- Bits under a mask. -/
def mergeBits (mask new old : W128) : W128 := (new &&& mask) ||| (old &&& ~~~mask)

end Sys2Proof.Machine
end

