-- ==== Sys2Proof/Machine/Flags.lean ====
section
/-! DEFINITION. The sticky flags of ksr (R128), the values that results leave under POST, SAT and FD (R118, R145, R146) and
the exact results of the S, VA and VB operations (R121 to R125, R150 to R169). -/

namespace Sys2Proof.Machine
open Sys2Proof

/-- The sticky flags, at their place among ksr [12:8] (R128). -/
abbrev Flags := BitVec 5
/-- SAT. -/
def flagSat : Flags := 1
/-- RANGE. -/
def flagRange : Flags := 2
/-- GOOB. -/
def flagGoob : Flags := 4
/-- DIV0. -/
def flagDiv0 : Flags := 8
/-- UILOST. -/
def flagUilost : Flags := 16

/-- A flag when a condition holds. -/
def Flags.when (b : Bool) (f : Flags) : Flags := if b then f else 0

/-- The ksr.SAT flag of one value brought into a format (R72, R146). -/
def satFlag (m : Sat) (b : Brought) : Flags := Flags.when (m == .satf && b.sat) flagSat

/-- A result of the scalar unit: the 64-bit extended value and the flags it sets. -/
structure SOut where
  val : W64
  flags : Flags
  deriving DecidableEq, Repr

/-- K0' and K1' in an integer FD (R65, R118). -/
def clampInt (o : AluOp) (r : Int) : Int :=
  let k := fun (x : BitVec 32) => intOf o.cw.fd (constPat o.cw.fd x 0 false)
  min (max r (k o.cw.k0)) (k o.cw.k1)

/-- The last lines of s_execute: the clamp of POST 010, then FD under SAT, then 64 bits (R118, R119). -/
def finishS (o : AluOp) (r : Int) : SOut :=
  let r := if o.cw.post = .clamp then clampInt o r else r
  let b := bringInt o.cw.fd o.cw.sat r
  ⟨extend64 o.cw.fd b.pat, satFlag o.cw.sat b⟩

/-- The three S operands as exact integers (R118). -/
def Core.sInts (c : Core) (o : AluOp) : Int × Int × Int :=
  (c.intSrc o o.cw.fa o.cw.prea o.a, c.intSrc o o.cw.fb o.cw.preb o.b, c.intSrc o o.cw.fc o.cw.prec o.c)

/-! ### Exact results, scalar and vector alike -/

/-- a × 2^c for c := b mod 256 (R121, R150). -/
def shlExact (a b : Int) : Int := a * 2 ^ (b % 256).toNat
/-- floor(a / 2^c) for c := b mod 256 (R121, R150). -/
def shrExact (a b : Int) : Int := a / 2 ^ (b % 256).toNat
/-- floor(a × b / 2^wD) (R121, R150). -/
def mulhExact (fd : Fmt) (a b : Int) : Int := a * b / 2 ^ fd.width
/-- A bitwise operation on a and b modulo 2^wD, read in FD (R121, R150). -/
def bitwiseExact (fd : Fmt) (f : Nat → Nat → Nat) (a b : Int) : Int :=
  intOf fd (f (wrapTo fd.width a) (wrapTo fd.width b))
/-- a and not b. -/
def andNot (w : Nat) (a b : Nat) : Nat := a &&& (2 ^ w - 1 - b)
/-- The FA pattern of a rotated left by c mod wA, read in FA (R121). -/
def rotlExact (fa : Fmt) (a b : Int) : Int :=
  let w := fa.width
  let k := (b % 256).toNat % w
  let p := wrapTo w a
  intOf fa ((p * 2 ^ k + p / 2 ^ (w - k)) % 2 ^ w)
/-- Leading zeros of the FA pattern (R121, R150). -/
def clzExact (fa : Fmt) (a : Int) : Int := leadingZeros fa.width (wrapTo fa.width a)
/-- Ones in the FA pattern (R121, R150). -/
def popcExact (fa : Fmt) (a : Int) : Int := popcount fa.width (wrapTo fa.width a)

/-- div of R122: the quotient under SAT, or all ones and DIV0. -/
def divOut (o : AluOp) (a b : Int) : SOut :=
  if b = 0 then ⟨extend64 o.cw.fd (2 ^ o.cw.fd.width - 1), flagDiv0⟩ else finishS o (a.tdiv b)

/-- rem of R122: the remainder under SAT, or a modulo 2^wD and DIV0. -/
def remOut (o : AluOp) (a b : Int) : SOut :=
  if b = 0 then ⟨extend64 o.cw.fd (wrapTo o.cw.fd.width a), flagDiv0⟩ else finishS o (a - a.tdiv b * b)

/-- The pattern of an S operand (for the phasor operations, R125). -/
def Core.patSrc (c : Core) (o : AluOp) (f : Fmt) (x : Src) : Nat := (c.scalarSrc o f x).toNat % 2 ^ f.width

/-- Latency of an S operation (R120). -/
def sLatency (t : AluTag) (o : AluOp) : Nat :=
  match t with
  | .mul | .mulh | .fma | .fms => 3
  | .div | .rem => if o.cw.fd.width = 64 then 34 else 18
  | _ => 1

/-! ### Vector results -/

/-- A result of a vector slot: its bits from bit 0, and the flags it sets. -/
structure VOut where
  bits : Nat
  flags : Flags
  deriving DecidableEq, Repr

/-- Elements computed: n = W / wE (R143). -/
def eltCount (t : AluTag) (o : AluOp) : Nat := vecBits o.w / (o.wE t)

/-- One element after the operation: a pattern in FD and its flags. -/
structure EOut where
  pat : Nat
  flags : Flags
  deriving DecidableEq, Repr

/-- K0 or K1 read in FD (R65, R145). -/
def clampLim (o : AluOp) (k : BitVec 32) : X := numOf o.cw.fd (constPat o.cw.fd k 0 false)

/-- The clamp of POST 010 on an exact value: NaN passes (R145). DESIGN CHOICE (log 88): a limit K0' or K1' that is itself
a NaN is one the rule does not speak of; min and max of R151 then give NaN. -/
def clampNum (o : AluOp) (x : X) : X :=
  if x.isNan then x else (x.max2 (clampLim o o.cw.k0)).min2 (clampLim o o.cw.k1)

/-- The clamp when asked for, then FD under SAT (R145, R146). -/
def finishNum (o : AluOp) (x : X) : EOut :=
  let x := if o.cw.post = .clamp then clampNum o x else x
  let b := bring o.cw.fd o.cw.sat x
  ⟨b.pat, satFlag o.cw.sat b⟩

/-- Flags of a list of elements, together (R145). -/
def orFlags (es : List EOut) : Flags := es.foldl (fun f e => f ||| e.flags) 0

/-- A cross-lane sum of values of a format: the f32 tree for floating formats, exact for integers (R106, R107, R158). -/
def sumOf (f : Fmt) (xs : List X) : X := if f.isFlt then treeSum 8 xs else xs.foldl X.add .zero

/-- The reduction a POST code asks for, on elements already in FD (R145, R158). -/
def postReduce (o : AluOp) (es : List EOut) : List EOut :=
  let xs := es.map fun e => numOf o.cw.fd e.pat
  let one := fun (x : X) =>
    let b := bring o.cw.fd o.cw.sat x
    ⟨b.pat, satFlag o.cw.sat b ||| orFlags es⟩ :: List.replicate (es.length - 1) ⟨0, 0⟩
  match o.cw.post with
  | .rsum => one (sumOf o.cw.fd xs)
  | .rmax => one (extreme X.max2 xs)
  | .rmin => one (extreme X.min2 xs)
  | _ => es

/-- The end of v_execute: POST reductions, packing at wD, zero above (R145). -/
def finishV (o : AluOp) (es : List EOut) : VOut :=
  let es := postReduce o es
  ⟨packElts o.cw.fd.width (es.map EOut.pat), orFlags es⟩

/-- The vector sources of an operation. -/
def Core.vSrcs (c : Core) (o : AluOp) : VSrc × VSrc × VSrc :=
  (c.vecSrc o o.cw.fa o.a, c.vecSrc o o.cw.fb o.b, c.vecSrc o o.cw.fc o.c)

/-- An element-wise operation on exact values (R150). -/
def Core.vNum (c : Core) (t : AluTag) (o : AluOp) (f : X → X → X → X) : VOut :=
  let (a, b, d) := c.vSrcs o
  let w := o.wE t
  finishV o ((List.range (eltCount t o)).map fun j =>
    finishNum o (f (eltNum w o.cw.fa o.cw.prea a j) (eltNum w o.cw.fb o.cw.preb b j) (eltNum w o.cw.fc o.cw.prec d j)))

/-- An element-wise operation on exact integers (R150). -/
def Core.vInt (c : Core) (t : AluTag) (o : AluOp) (f : Int → Int → Int) : VOut :=
  let (a, b, _) := c.vSrcs o
  let w := o.wE t
  finishV o ((List.range (eltCount t o)).map fun j =>
    finishNum o (.ofInt (f (eltInt w o.cw.fa o.cw.prea a j) (eltInt w o.cw.fb o.cw.preb b j))))

/-- An element-wise operation on patterns whose results need no FD rule (R112, R150, R152). -/
def Core.vPat (c : Core) (t : AluTag) (o : AluOp) (f : Nat → Nat → Nat → Nat) : VOut :=
  let (a, b, _) := c.vSrcs o
  let w := o.wE t
  finishV { o with cw := { o.cw with post := .none } } ((List.range (eltCount t o)).map fun j =>
    ⟨f j (eltPat w o.cw.fa o.cw.prea a j) (eltPat w o.cw.fb o.cw.preb b j), 0⟩)

/-- A vector compare: the guard bits of its lanes (R153, R167). -/
def Core.vGuard (c : Core) (t : AluTag) (o : AluOp) (f : X → X → Bool) : W128 :=
  let (a, b, _) := c.vSrcs o
  let w := o.wE t
  BitVec.ofNat 128 (packElts (w / 8) ((List.range (eltCount t o)).map fun j =>
    if f (eltNum w o.cw.fa o.cw.prea a j) (eltNum w o.cw.fb o.cw.preb b j) then 2 ^ (w / 8) - 1 else 0))

/-- A phasor compare: the guard bits of its lanes (R117, R167). -/
def Core.vGuardPh (c : Core) (t : AluTag) (o : AluOp) (r : PhaseOrder) : W128 :=
  let (a, b, _) := c.vSrcs o
  let w := o.wE t
  BitVec.ofNat 128 (packElts (w / 8) ((List.range (eltCount t o)).map fun j =>
    if phaseOrder o.cw.fa o.cw.fb (eltRaw w o.cw.fa o.cw.prea a j) (eltRaw w o.cw.fb o.cw.preb b j) == r
    then 2 ^ (w / 8) - 1 else 0))

/-- The byte mask a compare leaves in its latch: 0xFF where the guard bit is 1 (R153). -/
def guardBytes (g : W128) : W1024 :=
  BitVec.ofNat 1024 (natOf ((List.range 128).map fun i => if g.getLsbD i then 0xFF else 0))

/-- vredsum, vredmax and vredmin (R157, R158). -/
def Core.vReduce (c : Core) (t : AluTag) (o : AluOp) (f : List X → X) : VOut :=
  let (a, _, _) := c.vSrcs o
  let w := o.wE t
  let n := eltCount t o
  let e := finishNum o (f ((List.range n).map fun j => eltNum w o.cw.fa o.cw.prea a j))
  ⟨e.pat, e.flags⟩

/-- vcvt (R159): num to num, ph8 and ph16, or the RES field of phc32. -/
def Core.vConvert (c : Core) (o : AluOp) : VOut :=
  if o.cw.fa.isNum then c.vNum .vcvt o fun a _ _ => a
  else c.vPat .vcvt o fun _ a _ =>
    if o.cw.fa == .phc32 then
      (let (u, g) := phOf .ph16 (a / 65536); phTo .ph16 u g)
    else (let (u, g) := phOf o.cw.fa a; phTo o.cw.fd u g)

/-- The guard bit that vsel reads for element j: bit wE·j/8 of gC (R152). -/
def Core.vSelect (c : Core) (o : AluOp) : VOut :=
  let g := match o.c with
    | .reg n => c.readG (n.setWidth 4)
    | _ => 0
  c.vPat .vsel o fun j a b => if g.getLsbD (o.wE .vsel * j / 8) then a else b

/-- vperm (R154): chunk j of the result is chunk PERM[4j+3:4j] of A, A read in full. DEDUCED (log 89): a latch source too
is read in full, all 1,024 bits, also at a W below 1,024, where R143 and R25 speak of bits W−1 to 0. -/
def Core.vPermute (c : Core) (o : AluOp) : VOut :=
  let a := match c.vecSrc o o.cw.fa o.a with
    | .bits n => n
    | .every p => packElts o.cw.fa.width (List.replicate (1024 / o.cw.fa.width) p)
  ⟨packElts 64 ((List.range (vecBits o.w / 64)).map fun j => field a (64 * field o.cw.perm.toNat (4 * j) 4) 64), 0⟩

/-- A phasor element brought into its own format: undefined values leave in their canonical pattern, 0x01, 0x0001 or
0x0001_0000 (R109, R110, R111, R146). -/
def canonPhasor (f : Fmt) (p : Nat) : Nat :=
  if f == .phc32 then (if p / 65536 % 2 = 1 then 0x00010000 else p % 2 ^ 32)
  else (let (u, g) := phOf f p; if u then 1 else if f == .ph8 then g / 256 * 2 else g * 2)

/-- The 64-bit scalar operand of vbcast: IMM12 is sign-extended to 64 bits whatever FA is (R143); every other source is
read as R64 and R65 say. -/
def Core.bcastSrc (c : Core) (o : AluOp) : W64 :=
  match o.a with
  | .imm => BitVec.ofInt 64 o.imm.toInt
  | x => c.scalarSrc o o.cw.fa x

/-- vbcast (R155): one element of the scalar operand, brought into FD (R146), in every lane. -/
def Core.vBroadcast (c : Core) (o : AluOp) : VOut :=
  let a := (c.bcastSrc o).toNat
  let p := field a (if o.cw.prea.bc then o.cw.fa.width * o.cw.prea.el.toNat else 0) o.cw.fa.width
  let e : EOut := if o.cw.fa.isNum then finishNum o (numOf o.cw.fa p) else ⟨canonPhasor o.cw.fd p, 0⟩
  ⟨packElts o.cw.fd.width (List.replicate (vecBits o.w / o.wE .vbcast) e.pat), e.flags⟩

/-- vext (R156): the 64-bit extended element b mod m of A. -/
def Core.vExtract (c : Core) (o : AluOp) : W64 :=
  let b := (c.scalarSrc o .none o.b).toNat
  let m := vecBits o.w / o.cw.fa.width
  extend64 o.cw.fa (eltRaw o.cw.fa.width o.cw.fa .zero (c.vecSrc o o.cw.fa o.a) (b % m))

/-- vscacc (R108, R164): t := RNE(sa × sb), then RNE(c + a × t), SAT on overflow in each. -/
def Core.vScaleAcc (c : Core) (o : AluOp) : VOut :=
  let (a, _, d) := c.vSrcs o
  let b := match c.vecSrc o .f32 o.b with
    | .bits n => n
    | .every p => packElts 32 [p, p]
  let t := bring .f32 o.cw.sat ((f32.toX (field b 0 32)).mul (f32.toX (field b 32 32)))
  let r := finishV o ((List.range (vecBits o.w / 32)).map fun j =>
    finishNum o ((eltNum 32 .f32 o.cw.prec d j).add ((eltNum 32 .f32 o.cw.prea a j).mul (f32.toX t.pat))))
  ⟨r.bits, r.flags ||| satFlag o.cw.sat t⟩

/-- The correctly rounded special functions (R165). -/
def Core.vSpecial (c : Core) (t : AluTag) (o : AluOp) (f : X → X) : VOut := c.vNum t o fun a _ _ => f a

/-- vsin and vcos (R166), RANGE set by every element computed. -/
def Core.vSincos (c : Core) (t : AluTag) (o : AluOp) (sine : Bool) : VOut :=
  let (a, _, _) := c.vSrcs o
  finishV o ((List.range (eltCount t o)).map fun j =>
    let r := sincosX sine (eltNum 32 .f32 o.cw.prea a j)
    let e := finishNum o r.1
    ⟨e.pat, e.flags ||| Flags.when r.2 flagRange⟩)

/-- vphacc (R168): D's accumulators take one step each over the elements of A. -/
def Core.vPhAcc (c : Core) (o : AluOp) : VOut :=
  let d := (c.readV o.d).toNat
  let a := c.vecSrc o o.cw.fa o.a
  let w := o.cw.fa.width
  let m := 128 / w
  ⟨packElts 128 ((List.range (vecBits o.w / 128)).map fun q =>
    phStep (field d (128 * q) 128) ((List.range m).map fun i =>
      let (u, g) := phOf o.cw.fa (eltRaw w o.cw.fa o.cw.prea a (q * m + i))
      (phTo .ph16 u g, 0))), 0⟩

/-- vphres (R169): the resultants of A's accumulators, packed. DESIGN CHOICE (log 90): FA is 0 and has no row in R65, so a
constant source K0, K1 or IMM12 supplies zero bits here; log 18's sign extension is for scalar operands alone. -/
def Core.vPhRes (c : Core) (o : AluOp) : VOut :=
  let a := match c.vecSrc o .none o.a with
    | .bits n => n
    | .every _ => 0
  ⟨packElts 32 ((List.range (vecBits o.w / 128)).map fun q => resultant (field a (128 * q) 128)), 0⟩

/-- vrow on the bits of a bank row (R160). -/
def rowOut (o : AluOp) (row : W1024) : VOut :=
  let n := vecBits o.w / 32
  if o.cw.fd == .bf16 then
    ⟨packElts 16 ((List.range n).map fun j => (floatFmt .bf16).rtz (f32.toX (field row.toNat (32 * j) 32))), 0⟩
  else ⟨row.toNat % 2 ^ vecBits o.w, 0⟩

/-- vwrow's W bits (R161): copied, or bf16 widened by sixteen zero bits below. -/
def Core.vWriteRow (c : Core) (o : AluOp) : Nat :=
  let b := c.vecSrc o o.cw.fb o.b
  packElts 32 ((List.range (vecBits o.w / 32)).map fun j =>
    if o.cw.fb == .bf16 then eltPat 32 .bf16 o.cw.preb b j * 65536 else eltPat 32 o.cw.fb o.cw.preb b j)

/-- Whether a used operand of an operation has a floating format (R149). -/
def isFloating (o : AluOp) : Bool := o.cw.fa.isFlt || o.cw.fb.isFlt || o.cw.fc.isFlt || o.cw.fd.isFlt

/-- Latency of a vector operation; a reduce POST code adds 4 (R149). -/
def vLatency (t : AluTag) (o : AluOp) : Nat :=
  let f := isFloating o
  (match t with
   | .vmul | .vmulh | .vfma | .vfms => if f then 4 else 3
   | .vadd | .vsub | .vmin | .vmax | .vcmpEq | .vcmpNe | .vcmpLt | .vcmpLe | .vcmpUn => if f then 4 else 2
   | .vcvt => 3
   | .vphacc => 4
   | .vscacc => 5
   | .vredsum | .vredmax | .vredmin => 6
   | .vphres => 8
   | .vrcp | .vrsqrt | .vsqrt | .vexp2 | .vlog2 => 12
   | .vsin | .vcos => 16
   | _ => 2) + (if o.cw.post.isReduce then 4 else 0)

end Sys2Proof.Machine
end

