-- ==== Sys2Proof/Config.lean ====
section
/-! DEFINITION. What is fixed for the device: the numbers of the spec that the machine reads, and the free values: the
values that the spec leaves open, as constants without a body, applied to the state's counter `fresh` (log 4). -/

namespace Sys2Proof.Config
open Sys2Proof

/-- A byte whose value the spec leaves open: what deciphering under another key yields, what overlapping copies and
shuffles leave, what a racing read returns (R271, R213, R219). -/
opaque freeByte : Nat → Nat → Byte

/-- A word whose value the spec leaves open: a signature, a digest, a measurement (R8, R398, R432). -/
opaque freeWord : Nat → Nat → W64

/-- The SHA-384 digest of the firmware image in force at the start of a run (R398, R431, R432): not in the spec. -/
opaque firmwareDigest : BitVec 384

/-- The public key of the P-384 device identity key, derived from the device secret and the digest of the accepted firmware (R432): the
derivation is not in the spec. -/
opaque p384Identity : BitVec 256 → BitVec 384 → BitVec 768

/-- The public key of the LMS identity key, derived in the same way (R432). -/
opaque lmsIdentity : BitVec 256 → BitVec 384 → BitVec 448

/-- Byte i of the n-th P-384 signature under an identity key over a digest (R8, R416, R417, R432): an ECDSA signature has a random part. -/
opaque p384Sign : BitVec 768 → BitVec 384 → Nat → Nat → Byte

/-- Byte i of the n-th LMS signature under an identity key over a digest. -/
opaque lmsSign : BitVec 448 → BitVec 384 → Nat → Nat → Byte

/-- The unique device secret in the fuses (R431): not in the spec. -/
opaque deviceSecret : BitVec 256

/-- The key pair that the control complex programs into slot 0 (R390): not in the spec. -/
opaque slotZeroKey : BitVec 512

/-- The n-th random key pair of the device (R389): not in the spec. -/
opaque randomKey : Nat → BitVec 512

/-- The key pair under which hardware writes the areas of the n-th context (log 12): not in the spec. -/
opaque areaKey : Nat → BitVec 512

/-- The participants and the round size of the reduction window that a location belongs to, where no set-up of it is held
(R286): the supervisor's choice, and how it is made is not in the spec (log 7). -/
opaque windowParts : Nat → List Nat
/-- R286. -/
opaque windowRound : Nat → Nat

/-- The bytes of the answers to GET_TDISP_VERSION and GET_TDISP_CAPABILITIES (R398): fixed, and not in the spec. -/
opaque tdispByte : Nat → Byte

/-- The channel that a 64 KiB page lies on, device-wide: fixed, and not in the spec (R409). -/
opaque channelOf : Nat → Fin 256

/-- Depth of the load queue (R201). -/
def loadDepth : Nat := 16
/-- Depth of the store queue (R201). -/
def storeDepth : Nat := 16
/-- Depth of the atomic queue (R201). -/
def atomicDepth : Nat := 8
/-- Depth of the copy queue (R201). -/
def copyDepth : Nat := 8
/-- Depth of the shuffle queue (R201). -/
def shuffleDepth : Nat := 8
/-- Depth of the matrix fetch queue (R172). -/
def matrixDepth : Nat := 4
/-- Entries of the oasis (R27). -/
def oasisDepth : Nat := 64
/-- Closed batches that may be outstanding (R216). -/
def maxBatches : Nat := 32
/-- User interrupts that may be held (R136). -/
def maxHeldUi : Nat := 8
/-- Bytes of a scratchpad (R199). -/
def spadBytes : Nat := 393216
/-- Bytes of the spill RAM (R35). -/
def spillBytes : Nat := 4096
/-- Bytes of a die's weight store (R199). -/
def wsBytes : Nat := 2 ^ 30
/-- First physical address beyond device memory (R382). -/
def devBytes : Nat := 512000000000
/-- Greatest value of a barrier's PEND (R227). -/
def maxPend : Nat := 1048575
/-- Lines of the region store buffer (R240). -/
def regionLines : Nat := 256
/-- Bytes of a context area (R352). -/
def areaBytes : Nat := 729088
/-- Records a pool may hold, and the limit at which expansion stops (R331). -/
def poolMax : Nat := 4096
/-- R331. -/
def poolExpand : Nat := 3072
/-- Committed records a launch queue holds (R318). -/
def launchDepth : Nat := 32
/-- Caravans that may be live (R324). -/
def maxCaravans : Nat := 1024
/-- Cycles after which a head record or a runnable record is escalated (R324, R335). -/
def ageLimit : Nat := 2 ^ 20

end Sys2Proof.Config
end

