-- ==== Sys2Proof/Machine/DevState.lean ====
section
/-! DEFINITION. The state of the device outside its cores, as plain data: memory with its key tags, keys, contexts and
functions (20), launch queues, caravans and continuation records (16), the seif engines (10), reduction windows (11),
repair and scrub (21), the host's side (22). -/

namespace Sys2Proof.Machine
open Sys2Proof

/-- A key pair (R390): what the control complex programs into slot 0, the n-th random key, the key material of a key message,
or the key under which hardware writes the areas of the n-th context (log 12). -/
inductive KeyId where
  | slot0
  | random (n : Nat)
  | given (m : BitVec 512)
  | area (n : Nat)
  deriving DecidableEq, Repr

/-- Who reads or writes ciphertext: the key pair, and for a context the number of its creation (log 12). -/
structure Opener where
  key : KeyId
  who : Option Nat
  deriving DecidableEq, Repr

/-- A valid key slot (R390). Slots that are not listed are invalid. -/
structure KeySlot where
  fn  : Option FnId        -- none: the control complex
  sec : Bool
  key : KeyId
  deriving DecidableEq, Repr

/-- What a unit held before it was written in part under another key pair: its key pair, the bytes that are its own, its bytes. -/
structure Layer where
  key   : KeyId
  good  : BitVec 64
  bytes : List Byte
  deriving DecidableEq, Repr

/-- The key pair under which a 64-byte unit is enciphered (R390), the bytes written under it, what the others were written as
(log 3), and the context in whose area hardware wrote it (log 12). A unit that is not listed is wholly under slot 0. -/
structure UnitTag where
  key   : KeyId
  good  : BitVec 64
  under : List Layer
  area  : Option Nat
  deriving DecidableEq, Repr

/-- A unit wholly under one key pair. -/
def UnitTag.whole (k : KeyId) : UnitTag := ⟨k, BitVec.allOnes 64, [], none⟩

/-- A live context's descriptor (R387). -/
structure Ctx where
  id    : BitVec 12
  fn    : FnId
  sec   : Bool
  held  : Bool
  tkey  : BitVec 12
  ptb   : W64
  carea : W64
  no    : Nat              -- its place in the order in which contexts were created
  deriving DecidableEq, Repr

/-- The interface states (R393). -/
inductive Iface where
  | unlocked | locked | run | error
  deriving DecidableEq, Repr

/-- The locked items as LOCK_INTERFACE_REQUEST froze them (R394, R398). -/
structure Frozen where
  bar0   : W64
  bar2   : W64
  bar4   : W64
  mask   : BitVec 10
  clus   : BitVec 32
  csec   : BitVec 32
  queues : BitVec 64
  slots  : BitVec 16
  grans  : List (Nat × Bool)
  deriving DecidableEq, Repr

/-- A function (R142, R389, R393, R394, R400, R428, R429). -/
structure Fn where
  iface  : Iface
  mask   : BitVec 10
  cmd    : W64
  opa    : W64
  opb    : W64
  status : W64
  cmds   : List (W64 × W64 × W64)   -- writes of CMD that wait behind a command, with their OPA and OPB (R389)
  err    : W64
  hkey   : BitVec 13       -- [11:0] key slot, [12] open
  bar0   : W64
  bar2   : W64
  bar4   : W64
  command : W64
  ide    : Bool
  spdm   : List (W64 × BitVec 512)   -- sessions with a key message
  svec   : BitVec 48
  stkey  : BitVec 12
  stlen  : BitVec 32
  scwt   : Sparse 256      -- supervisor control word table (R347)
  scwtP  : NatSet
  frozen : Option Frozen
  halves : List (Nat × BitVec 512)   -- first halves of launch records waiting to pair, by queue (R319)
  nrand  : Nat             -- random keys drawn so far
  deriving DecidableEq, Repr

/-- A cluster (R382, R413). -/
structure Cluster where
  owner   : Option FnId
  sec     : Bool
  retired : Bool
  deriving DecidableEq, Repr

/-- A granule (R382). -/
structure Gran where
  owner : Option FnId
  sec   : Bool
  deriving DecidableEq, Repr

/-- A committed launch record with the tick of its commit, its place in the order of commits, and whether it has waited
long enough to go ahead of all others (R318, R324). -/
structure Pending where
  rec_   : BitVec 1024
  commit : Nat
  order  : Nat
  rank   : Nat             -- its rank among the arrivals of its tick: the host's, then those of each Erg port (R319, R324)
  aged   : Bool
  deriving DecidableEq, Repr

/-- A launch queue (R317, R318). -/
structure LQueue where
  en   : Bool
  prio : BitVec 3
  slot : BitVec 4
  fn   : FnId
  erg  : Bool
  ctx  : BitVec 12
  ovf  : Bool
  err  : Bool
  recs : List Pending
  deriving DecidableEq, Repr

/-- A model slot (R336). -/
structure MSlot where
  minbw  : BitVec 10
  weight : BitVec 8
  dw     : BitVec 8
  fn     : FnId
  valid  : Bool
  deriving DecidableEq, Repr

/-- A release (R230): the phase it was made in or the flag it set, the core, and the place in issue order before which
that core's accesses come before it (R275 case 10, R279). `skip` is a record whose suspended accesses are not among them (R378). -/
structure Release where
  mark   : Nat
  core   : Nat
  before : Nat
  skip   : Option Nat
  deriving DecidableEq, Repr

/-- A barrier object (R225), with the arrivals whose earlier accesses may not all be performed. -/
structure Bar where
  pend   : Nat
  part   : Nat
  phase  : Bool
  broken : Bool
  rel    : List Release
  flips  : List Nat        -- cores whose own arrival made a completion in this tick or later
  deriving DecidableEq, Repr

/-- A live caravan (R327). `next` counts the records expanded. -/
structure Caravan where
  id    : Nat
  queue : Fin 64
  slot  : BitVec 4
  prio  : BitVec 3
  ctx   : BitVec 12
  rec_  : BitVec 1024
  die   : Fin 4
  clus  : Nat              -- home cluster, device-wide
  ent   : W64              -- address of the first bundle
  det   : Bool
  cwt   : Sparse 256       -- from the image (R329)
  ment  : Sparse 64
  mmic  : Sparse 64
  bars  : Vector Bar 16
  evs   : BitVec 1024
  evRel : List Release
  next  : Nat
  order : Nat              -- order of admission
  deriving DecidableEq, Repr

/-- ST of a continuation record (R328). A record whose stream is stopped on a core is running; a parked one (R378) is
runnable, with its area. -/
inductive RecSt where
  | runnable | running | waiting | escalated
  deriving DecidableEq, Repr

/-- What a waiting record waits for (R236, R328). -/
inductive Wait where
  | none
  | bar (n : Fin 16) (phase : Bool)
  | ev (n : Fin 1024)
  | line (pos : Nat) (line : Nat)
  deriving DecidableEq, Repr

/-- A continuation record (R328). `since` is the tick in which it became runnable; a waiting record whose wait is none has met
its condition (R236, R333, R335). -/
structure CRec where
  id    : Nat
  pc    : W64
  hclu  : Nat
  hpos  : Nat
  hv    : Bool
  st    : RecSt
  d     : Nat
  c     : Nat
  k     : Nat
  stage : Nat
  pri   : BitVec 3
  msl   : BitVec 4
  ctx   : BitVec 12
  car   : Nat
  wait  : Wait
  s     : Vector W64 5
  acq   : List Release     -- what its wake acquired (R230)
  walls : List Wall        -- the acquires of its stopped stream, `after` counting the records of its list (R360)
  kidle : Option Nat       -- of a stream stopped in a handler, what its kernel's next bundle owed (log 101)
  knext : Option (W512 × W64)  -- and that bundle, where it was a record's
  since : Nat
  pin   : Bool             -- record (0, 0, 0) of a pinned launch that has not run
  ran   : Bool             -- it has run before
  area  : Option W64       -- the context area it is parked with (R378)
  deriving DecidableEq, Repr

/-- Accesses that the stream of a record left unperformed at a stop (R360): the core, and of each record of its list the place in
that core's issue order and whether it is such an access. Once the stream is resumed, the core and the place in issue order
from which its records stand there. -/
structure Susp where
  run  : Nat
  core : Nat
  recs : List (Nat × Bool)
  now  : Option (Nat × Nat)
  deriving DecidableEq, Repr

/-- A conversion of a seif engine (R263, R264): the handle, whose it is, and how far it is. -/
structure Conv where
  h     : Nat
  entry : W64              -- virtual address of the handle entry
  ctx   : BitVec 12
  fn    : FnId
  user  : Bool
  core  : CoreId
  car   : Nat
  corder : Nat             -- the place of that caravan in the order of admission
  queue : Fin 64
  slot  : BitVec 4
  padded : Bool            -- the padding of the new region is written
  g     : Nat              -- granules converted
  aside : Bool             -- set aside after a fault
  delivered : Bool         -- its fault has been delivered
  again : Bool             -- it may be taken up again (R264)
  addr  : W64              -- the address of its fault
  deriving DecidableEq, Repr

/-- A contribution to a reduction window that has reached the egress (R286). -/
structure Contrib where
  core : Nat
  seq  : Nat
  v    : W64
  op   : RedOp
  w64  : Bool
  key  : BitVec 12
  slot : BitVec 4          -- the model slot of the record that made it (R338)
  deriving DecidableEq, Repr

/-- A location of a reduction window (R286, R287): participants by device number, Cr, this device's contributions to the rounds
to come, the partials of the current round with the operation, width and key of the round, and the contributions not yet
merged. -/
structure Window where
  loc   : Nat
  parts : List Nat
  cr    : Nat
  mine  : List Contrib
  partials : List (Nat × W64)
  unmerged : List (Nat × Nat)      -- (core, seq)
  op    : RedOp
  w64   : Bool
  key   : BitVec 12
  slot  : BitVec 4         -- of the latest contributing record (R338)
  deriving DecidableEq, Repr

/-- A reduction window as the supervisors set it up (R286). -/
structure WinSet where
  base  : Nat
  size  : Nat
  parts : List Nat
  cr    : Nat
  deriving DecidableEq, Repr

/-- A monitor (R419). -/
structure Mon where
  qty : BitVec 7
  sel : BitVec 32
  mn  : BitVec 32
  mx  : BitVec 32
  bins : Vector (BitVec 32) 16
  deriving DecidableEq, Repr

/-- A stack's retirement and error status (R411) and the free pages of its repair pool (R409). -/
structure Stack where
  rch  : BitVec 32
  pool : NatSet
  cec  : BitVec 16
  uec  : BitVec 16
  deriving DecidableEq, Repr

/-- A scrub receipt (R416). -/
structure Receipt where
  seq  : Nat
  fn   : Nat               -- the function that held the granule
  gran : Nat
  bad  : List (Nat × Nat)  -- address and code of each exception
  deriving DecidableEq, Repr

/-- The two signatures of a signed response (R8, R432): P-384's in its signature field, LMS's in its opaque data. -/
structure Signed where
  p384 : List Byte
  lms  : List Byte
  deriving DecidableEq, Repr

/-- A response the device sends to the outside (R398, R399, R416, R425, R432; log 6). The code of a TDISP response is 0 for
success and 1 for the error response. -/
inductive Resp where
  | tdisp (f : FnId) (code : Nat) (body : List Byte)
  | receipt (f : FnId) (r : Option Receipt) (signatures : Signed)
  | hostData (f : FnId) (d : List Byte) (poison : Bool)
  | attestation (f : FnId) (measurement : List Byte) (signatures : Signed)
  | debugData (p : DebugPort)
  | discarded (p : DebugPort)
  | peerData (dev : Nat) (d : List Byte) (poison : Bool)
  | retry (f : FnId)
  deriving DecidableEq, Repr

/-- A channel's windows (R337): how many have begun, the minimum and weight of each class in force in the open one, the bursts
pending for each class (class 16: traffic of no caravan), the bursts that each was served in the window closed last, and
the unit that patrol reads next (R408). -/
structure BwWin where
  n     : Nat
  share : List (Nat × Nat × Nat)
  pend  : List (Nat × Nat)
  served : List (Nat × Nat)
  patrol : Nat
  deriving DecidableEq, Repr

/-- A firmware image in a slot of the flash (R431): the digests of its two public keys, whether each signature verifies over the
digest of header and body, that digest, and the security version. -/
structure Image where
  ecdsa   : BitVec 384
  lms     : BitVec 384
  ecdsaOk : Bool
  lmsOk   : Bool
  digest  : BitVec 384
  version : Nat
  deriving DecidableEq, Repr

/-- The fuses, the flash and the image in force (R431). The width of the device secret is not in the spec (log 80). -/
structure Boot where
  ecdsa   : BitVec 384
  lms     : BitVec 384
  counter : BitVec 64      -- each blown fuse counts one
  secret  : BitVec 256
  slotA   : Option Image
  slotB   : Option Image
  image   : Option Image
  deriving DecidableEq, Repr

/-- An extent of a checkpoint descriptor (R417): host or Erg peer, its port and device number, address and length. -/
structure Extent where
  peer : Bool
  port : BitVec 5
  dev  : BitVec 12
  addr : W64
  len  : W64
  deriving DecidableEq, Repr

/-- A checkpoint stream (R417; log 23): its extents, the granules it holds, their bytes with the keys that encipher them, and what its
trailer says: retired pages, poisoned units and signatures. -/
structure Ckpt where
  ext   : List Extent
  grans : List (Nat × Bool)
  mem   : Memory
  tags  : List (Nat × UnitTag)
  memP  : NatSet
  retired : NatSet
  proof : Signed
  deriving DecidableEq, Repr

/-- A checkpoint or restore stream under way (R417). -/
structure Stream where
  out : Bool
  quiet : Bool             -- QUIESCE
  fn  : FnId
  ext : List Extent
  got : Ckpt               -- what has been read, unit by unit
  left : List (Nat × Nat)  -- ranges of units still to be read, first unit and count
  deriving DecidableEq, Repr

/-- The device outside its cores. -/
structure Dev where
  mem    : Memory          -- plain bytes by physical address, device memory and host range alike
  tags   : List (Nat × UnitTag)
  memP   : NatSet          -- poisoned 64-byte units (R405)
  hostP  : NatSet          -- 8-byte units of the host range that the host answers with the poisoned bit set (R424)
  hostE  : NatSet          -- 8-byte units of it that the host answers with another error status
  ws     : Vector Memory 4
  wsP    : Vector NatSet 4 -- poisoned 64-byte units
  refresh : BitVec 32
  tick   : Nat
  keys   : List (Nat × KeySlot)
  ctxs   : List Ctx
  fns    : Vector Fn 8
  clus   : Vector Cluster 32
  grans  : Vector Gran 477
  qs     : Vector LQueue 64
  slots  : Vector MSlot 16
  credC  : Vector (Vector Nat 16) 32   -- credits per cluster (R334)
  credD  : Vector Nat 16
  cars   : List Caravan
  recs   : List CRec
  susp   : List Susp
  nid    : Nat             -- records created so far
  order  : Nat             -- commits, admissions and wakes so far
  seif   : Vector (List Conv) 4
  wins   : List WinSet
  locs   : List Window
  scrubG : NatSet          -- granules pending scrub (R414)
  scrubbed : NatSet        -- pages of those already scrubbed
  scrubFn : List (Nat × Nat)  -- function that held a granule when its scrub started
  notes  : List (Nat × Nat)  -- exceptions met so far in them: address, code (R416)
  moves  : List (Nat × Nat)  -- pages of retired channels that are still to move, with their repair pages
  moving : NatSet          -- pages locked by a move
  moved  : List (Nat × Nat)  -- pages redirected, with their repair pages
  lost   : NatSet          -- pages lost (R410)
  hbm    : Vector Stack 8
  receipts : List Receipt  -- latest first
  nrec   : Nat
  monC   : Vector Mon 32
  monM   : List (Nat × Mon)   -- channel monitors that are not zero
  bw     : List (Nat × BwWin)
  asked  : List (Nat × Nat)  -- bursts asked of a page's channel since its window began: 32 times the page plus the class (R337)
  streams : List Stream
  ckpts  : List Ckpt       -- latest first
  tmax   : BitVec 8
  warn   : Bool
  admHold : Bool           -- admission held by TWARN (R434)
  inReset : Bool           -- held in reset by TTRIP or a reset (R433, R434)
  training : Bool          -- a device reset whose boot has not come to the end of its step 3 (R433)
  flr    : NatSet          -- functions whose function-level reset has not completed (R433)
  boot   : Boot
  nctx   : Nat             -- contexts created so far
  ranks  : List (Nat × Nat)  -- of each point of arrival, the rank of this tick's latest arrival (R319, R393)
  msix   : List (FnId × Nat)  -- vectors raised, latest first (R430)
  resps  : List Resp       -- responses sent, latest first
  deriving DecidableEq, Repr

/-- A function at reset (R433): CONFIG_UNLOCKED, mask 0, nothing programmed (log 1). -/
def Fn.reset : Fn where
  iface := .unlocked
  mask := 0
  cmd := 0
  opa := 0
  opb := 0
  status := 0
  cmds := []
  err := 0
  hkey := 0
  bar0 := 0
  bar2 := 0
  bar4 := 0
  command := 0
  ide := false
  spdm := []
  svec := 0
  stkey := 0
  stlen := 0
  scwt := []
  scwtP := []
  frozen := none
  halves := []
  nrand := 0

/-- A launch queue at reset (R317, R318). -/
def LQueue.reset : LQueue := ⟨false, 0, 0, 0, false, 0, false, false, []⟩

/-- A monitor at reset (R419). -/
def Mon.reset : Mon := ⟨0, 0, 0, 0, Vector.replicate 16 0⟩

/-- A barrier object at launch (R225). -/
def Bar.zero : Bar := ⟨0, 0, false, false, [], []⟩

/-- The image in force at the start of a run (log 80). -/
def Image.first : Image := ⟨0, 0, true, true, Config.firmwareDigest, 0⟩

/-- Fuses and flash at the start of a run: slot A holds an image that is accepted (log 80). -/
def Boot.reset : Boot := ⟨0, 0, 0, Config.deviceSecret, some .first, none, some .first⟩

/-- The device at reset: nothing assigned, no context, slot 0 programmed, every granule pending scrub (R390, R433; log 1,
log 2, log 13). -/
def Dev.reset : Dev where
  mem := []
  tags := []
  memP := []
  hostP := []
  hostE := []
  ws := Vector.replicate 4 []
  wsP := Vector.replicate 4 []
  refresh := 0
  tick := 0
  keys := [(0, ⟨none, true, .slot0⟩)]
  ctxs := []
  fns := Vector.replicate 8 .reset
  clus := Vector.replicate 32 ⟨none, false, false⟩
  grans := Vector.replicate 477 ⟨none, false⟩
  qs := Vector.replicate 64 .reset
  slots := Vector.replicate 16 ⟨0, 0, 0, 0, false⟩
  credC := Vector.replicate 32 (Vector.replicate 16 0)
  credD := Vector.replicate 16 0
  cars := []
  recs := []
  susp := []
  nid := 0
  order := 0
  seif := Vector.replicate 4 []
  wins := []
  locs := []
  scrubG := List.range 477
  scrubbed := []
  scrubFn := []
  notes := []
  moves := []
  moving := []
  moved := []
  lost := []
  hbm := Vector.replicate 8 ⟨0, [], 0, 0⟩
  receipts := []
  nrec := 0
  monC := Vector.replicate 32 .reset
  monM := []
  bw := []
  asked := []
  streams := []
  ckpts := []
  tmax := 0
  warn := false
  admHold := false
  inReset := false
  training := false
  flr := []
  boot := .reset
  nctx := 1
  ranks := []
  msix := []
  resps := []

end Sys2Proof.Machine
end

