-- ==== Sys2Proof/Machine/Cipher.lean ====
section
/-! DEFINITION. The cipher of memory (R390): AES-256 in the XTS mode of IEEE 1619 on units of 64 bytes, the tweak of a unit its
physical address divided by 64. The cipher itself is FIPS 197's, which the spec names and does not write out (log 3). Beside it
the digest of firmware and checkpoints (R417, R431). -/

namespace Sys2Proof.Machine
open Sys2Proof

namespace Aes

/-- A byte times x in the cipher's field. -/
def xtime (a : Byte) : Byte := (a <<< 1) ^^^ (if a.msb then 0x1B else 0)

/-- The product of two bytes in the cipher's field. -/
def mul (a b : Byte) : Byte :=
  ((List.range 8).foldl (fun (p : Byte × Byte) i => (if b.getLsbD i then p.1 ^^^ p.2 else p.1, xtime p.2)) (0, a)).1

/-- The inverse of a byte, 0 for 0: its 254th power. -/
def inv (a : Byte) : Byte :=
  let a2 := mul a a
  let a3 := mul a2 a
  let a6 := mul a3 a3
  let a12 := mul a6 a6
  let a15 := mul a12 a3
  let a30 := mul a15 a15
  let a60 := mul a30 a30
  let a120 := mul a60 a60
  let a126 := mul a120 a6
  let a127 := mul a126 a
  mul a127 a127

/-- The S-box. -/
def sub (a : Byte) : Byte :=
  let b := inv a
  b ^^^ b.rotateLeft 1 ^^^ b.rotateLeft 2 ^^^ b.rotateLeft 3 ^^^ b.rotateLeft 4 ^^^ 0x63

/-- The inverse of the S-box. -/
def unsub (a : Byte) : Byte := inv (a.rotateLeft 1 ^^^ a.rotateLeft 3 ^^^ a.rotateLeft 6 ^^^ 0x05)

/-- Two rows of bytes, byte by byte. -/
def xor (a b : List Byte) : List Byte := List.zipWith (· ^^^ ·) a b

/-- The words of the key schedule, the latest first, from the last eight and the number of the next; `fuel` words more. -/
def schedule : Nat → Nat → List (List Byte) → List (List Byte)
  | 0, _, ws => ws
  | fuel + 1, i, ws =>
    let t := ws.headD []
    let t := if i % 8 = 0 then
        xor ((t.drop 1 ++ t.take 1).map sub) [(List.range (i / 8 - 1)).foldl (fun c _ => xtime c) 1, 0, 0, 0]
      else if i % 8 = 4 then t.map sub else t
    schedule fuel (i + 1) (xor (ws.getD 7 []) t :: ws)

/-- The round keys of a 256-bit key, byte 0 first: 15 rows of 16 bytes. -/
def roundKeys (key : List Byte) : List (List Byte) :=
  let ws := (schedule 52 8 ((List.range 8).map fun i => (key.drop (4 * i)).take 4).reverse).reverse
  (List.range 15).map fun r => ((ws.drop (4 * r)).take 4).flatten

/-- The rows of a state shifted: byte i of column c comes from column c + d·i. -/
def shiftRows (d : Nat) (s : List Byte) : List Byte :=
  (List.range 16).map fun n => s.getD (n % 4 + 4 * ((n / 4 + d * (n % 4)) % 4)) 0

/-- Each column of a state times a circulant matrix, given by its first row. -/
def mixColumns (m : List Byte) (s : List Byte) : List Byte :=
  (List.range 16).map fun n =>
    (List.range 4).foldl (fun (a : Byte) j => a ^^^ mul (m.getD ((j + 4 - n % 4) % 4) 0) (s.getD (n / 4 * 4 + j) 0)) 0

/-- A block of 16 bytes enciphered. -/
def encrypt (key block : List Byte) : List Byte :=
  let ks := roundKeys key
  let s := (List.range 13).foldl (fun s r => xor (mixColumns [2, 3, 1, 1] (shiftRows 1 (s.map sub))) (ks.getD (r + 1) []))
    (xor block (ks.getD 0 []))
  xor (shiftRows 1 (s.map sub)) (ks.getD 14 [])

/-- A block of 16 bytes deciphered. -/
def decrypt (key block : List Byte) : List Byte :=
  let ks := roundKeys key
  let s := (List.range 13).foldl (fun s r => mixColumns [14, 11, 13, 9] (xor ((shiftRows 3 s).map unsub) (ks.getD (13 - r) [])))
    (xor block (ks.getD 14 []))
  xor ((shiftRows 3 s).map unsub) (ks.getD 0 [])

end Aes

/-- The key material of a pair. -/
def KeyId.material : KeyId → BitVec 512
  | .slot0 => Config.slotZeroKey
  | .random n => Config.randomKey n
  | .given m => m
  | .area n => Config.areaKey n

/-- The tweaks of the four blocks of a unit: the enciphered unit number, then each the one before it times x. -/
def xtsTweaks (key2 : List Byte) (unit : Nat) : List (List Byte) :=
  let t0 := natOf (Aes.encrypt key2 (bytesOf 16 unit))
  let next := fun (t : Nat) => if t < 2 ^ 127 then 2 * t else (2 * t - 2 ^ 128) ^^^ 0x87
  [t0, next t0, next (next t0), next (next (next t0))].map (bytesOf 16)

/-- The 64 bytes of a unit, enciphered or deciphered under a key pair: its first half for the data, its second for the tweak. -/
def xts (dec : Bool) (key : BitVec 512) (unit : Nat) (bs : List Byte) : List Byte :=
  let k := bytesOf 64 key.toNat
  ((xtsTweaks (k.drop 32) unit).zipIdx.map fun t =>
    let b := Aes.xor ((bs.drop (16 * t.2)).take 16) t.1
    Aes.xor (if dec then Aes.decrypt (k.take 32) b else Aes.encrypt (k.take 32) b) t.1).flatten

/-- What a unit written under one key pair reads as under another (R390). -/
def recipher (old new : KeyId) (unit : Nat) (bs : List Byte) : List Byte :=
  xts true new.material unit (xts false old.material unit bs)

/-! The digest of R398, R417 and R431 is SHA-384, of FIPS 180-4, which the spec names and does not write out (log 3). -/

namespace Sha

/-- The constants of the rounds: the first 64 bits of the fractional parts of the cube roots of the first eighty primes. -/
def k : List W64 :=
  [0x428A2F98D728AE22, 0x7137449123EF65CD, 0xB5C0FBCFEC4D3B2F, 0xE9B5DBA58189DBBC,
   0x3956C25BF348B538, 0x59F111F1B605D019, 0x923F82A4AF194F9B, 0xAB1C5ED5DA6D8118,
   0xD807AA98A3030242, 0x12835B0145706FBE, 0x243185BE4EE4B28C, 0x550C7DC3D5FFB4E2,
   0x72BE5D74F27B896F, 0x80DEB1FE3B1696B1, 0x9BDC06A725C71235, 0xC19BF174CF692694,
   0xE49B69C19EF14AD2, 0xEFBE4786384F25E3, 0x0FC19DC68B8CD5B5, 0x240CA1CC77AC9C65,
   0x2DE92C6F592B0275, 0x4A7484AA6EA6E483, 0x5CB0A9DCBD41FBD4, 0x76F988DA831153B5,
   0x983E5152EE66DFAB, 0xA831C66D2DB43210, 0xB00327C898FB213F, 0xBF597FC7BEEF0EE4,
   0xC6E00BF33DA88FC2, 0xD5A79147930AA725, 0x06CA6351E003826F, 0x142929670A0E6E70,
   0x27B70A8546D22FFC, 0x2E1B21385C26C926, 0x4D2C6DFC5AC42AED, 0x53380D139D95B3DF,
   0x650A73548BAF63DE, 0x766A0ABB3C77B2A8, 0x81C2C92E47EDAEE6, 0x92722C851482353B]
  ++ [0xA2BFE8A14CF10364, 0xA81A664BBC423001, 0xC24B8B70D0F89791, 0xC76C51A30654BE30,
   0xD192E819D6EF5218, 0xD69906245565A910, 0xF40E35855771202A, 0x106AA07032BBD1B8,
   0x19A4C116B8D2D0C8, 0x1E376C085141AB53, 0x2748774CDF8EEB99, 0x34B0BCB5E19B48A8,
   0x391C0CB3C5C95A63, 0x4ED8AA4AE3418ACB, 0x5B9CCA4F7763E373, 0x682E6FF3D6B2B8A3,
   0x748F82EE5DEFB2FC, 0x78A5636F43172F60, 0x84C87814A1F0AB72, 0x8CC702081A6439EC,
   0x90BEFFFA23631E28, 0xA4506CEBDE82BDE9, 0xBEF9A3F7B2C67915, 0xC67178F2E372532B,
   0xCA273ECEEA26619C, 0xD186B8C721C0C207, 0xEADA7DD6CDE0EB1E, 0xF57D4F7FEE6ED178,
   0x06F067AA72176FBA, 0x0A637DC5A2C898A6, 0x113F9804BEF90DAE, 0x1B710B35131C471B,
   0x28DB77F523047D84, 0x32CAAB7B40C72493, 0x3C9EBE0A15C9BEBC, 0x431D67C49C100D4C,
   0x4CC5D4BECB3E42B6, 0x597F299CFC657E2A, 0x5FCB6FAB3AD6FAEC, 0x6C44198C4A475817]

/-- The first hash value. -/
def start : List W64 :=
  [0xCBBB9D5DC1059ED8, 0x629A292A367CD507, 0x9159015A3070DD17, 0x152FECD8F70E5939,
   0x67332667FFC00B31, 0x8EB44A8768581511, 0xDB0C2E0D64F98FA7, 0x47B5481DBEFA4FA4]

/-- The message schedule, the latest word first: from sixteen words, `n` words more. -/
def expand : Nat → List W64 → List W64
  | 0, ws => ws
  | n + 1, ws =>
    let a := ws.getD 14 0
    let b := ws.getD 1 0
    expand n ((ws.getD 15 0 + (a.rotateRight 1 ^^^ a.rotateRight 8 ^^^ a >>> 7) + ws.getD 6 0
      + (b.rotateRight 19 ^^^ b.rotateRight 61 ^^^ b >>> 6)) :: ws)

/-- A round with its constant and its word of the schedule. -/
def round (h : List W64) (kw : W64 × W64) : List W64 :=
  match h with
  | [a, b, c, d, e, f, g, i] =>
    let t1 := i + (e.rotateRight 14 ^^^ e.rotateRight 18 ^^^ e.rotateRight 41) + ((e &&& f) ^^^ (~~~e &&& g)) + kw.1 + kw.2
    let t2 := (a.rotateRight 28 ^^^ a.rotateRight 34 ^^^ a.rotateRight 39) + ((a &&& b) ^^^ (a &&& c) ^^^ (b &&& c))
    [t1 + t2, a, b, c, d + t1, e, f, g]
  | _ => h

/-- A block of sixteen words goes into the hash value. -/
def block (h ws : List W64) : List W64 :=
  List.zipWith (· + ·) h ((k.zip (expand 64 ws.reverse).reverse).foldl round h)

/-- A word of eight bytes, the most significant first. -/
def word (bs : List Byte) : W64 := BitVec.ofNat 64 (natOf bs.reverse)

/-- The blocks of a padded message in turn; `n` of them. -/
def blocks : Nat → List W64 → List Byte → List W64
  | 0, h, _ => h
  | n + 1, h, bs => blocks n (block h ((List.range 16).map fun i => word ((bs.drop (8 * i)).take 8))) (bs.drop 128)

end Sha

/-- The SHA-384 digest of a message, its first byte in the lowest bits. -/
def sha384 (bs : List Byte) : BitVec 384 :=
  let pad := 0x80 :: List.replicate ((239 - bs.length % 128) % 128) 0 ++ (bytesOf 16 (8 * bs.length)).reverse
  let h := Sha.blocks ((bs.length + pad.length) / 128) Sha.start (bs ++ pad)
  BitVec.ofNat 384 (natOf ((h.take 6).flatMap fun w => (bytesOf 8 w.toNat).reverse))

end Sys2Proof.Machine
end

