-- ==== Sys2Proof/Machine/State.lean ====
section
/-! DEFINITION. The state of the machine, as plain data: the 320 cores, the device around them, and the model's own fields:
the order of moves its environment chose, the core whose turn it is, the slot operations of the bundle issuing, and the
counter that free values are applied to. Beside it the faults and the refusals, and the state after reset. -/

namespace Sys2Proof.Machine
open Sys2Proof

/-- A move of the agenda (log 5): a step of the table, a turn of a core's clock, or something that the world around the device does
and that no row of the table names. -/
inductive Move where
  | act (i : Instr)
  | turn (c : CoreId)
  | sensor (t : BitVec 8)                          -- the hottest junction reads t (R434)
  | hostStore (a : Nat) (bs : List Byte)           -- the host changes its own memory (R423)
  | hostAnswers (a n : Nat) (poison error : Bool)  -- how the host completes the reads of some bytes from now on (R424)
  | copyRead (c : CoreId)                          -- a core's copy engine reads a unit ahead of its writes (R271)
  | narrowWrite (f : FnId) (off size : Nat)        -- the host writes BAR0 with another size or alignment (R426)
  | flrDone (f : FnId)                             -- a function-level reset completes (R433)
  | trained                                        -- the boot after a reset comes to the end of its step 3 (R433)
  deriving DecidableEq, Repr

/-- The machine. -/
structure State where
  cores  : Vector Core 320
  d      : Dev
  cur    : CoreId
  agenda : List Move
  issue  : List Instr
  fresh  : Nat
  deriving DecidableEq, Repr

/-- Why the model stops where the machine cannot be. -/
inductive Fault where
  /-- Raised by the meaning of an event or command that the environment asks for in a state in which the spec has no such
  event (a landing when none is due, a landing of a request that is not outstanding). Safe: the machine never takes that
  step there (log 8). -/
  | notEnabled (event : String)
  deriving DecidableEq, Repr

/-- Why an instruction has no meaning. -/
inductive Refusal where
  /-- Raised by an arm of exec whose instruction is not modelled yet. Safe: nothing can be proved of what it does. -/
  | notModelled (mnemonic : String)
  deriving DecidableEq, Repr

/-- The machine right after reset: every core unbound at the start of a cycle, the device as Dev.reset, no moves chosen. -/
def State.reset : State where
  cores := Vector.replicate 320 .reset
  d := .reset
  cur := 0
  agenda := []
  issue := []
  fresh := 0

end Sys2Proof.Machine
end

