-- ==== Sys2Proof/Machine/Mem.lean ====
section
/-! DEFINITION. Memory as the agents of the device reach it: bytes and the keys they are under (R390, R391), the page walk and its
checks (R252 to R254, R386, R392), the limits of the spaces (R199), scratchpad lines (R246 to R248), handle entries,
layouts and the redirector (R256 to R262, R266). -/

namespace Sys2Proof.Machine
open Sys2Proof

/-! ### Tables by number -/

/-- The entry of a table, by its number. -/
def tabGet {α : Type} (m : List (Nat × α)) (k : Nat) : Option α := (m.find? fun e => e.1 == k).map Prod.snd
/-- Sets an entry of a table, the numbers rising. -/
def tabSet {α : Type} (m : List (Nat × α)) (k : Nat) (v : α) : List (Nat × α) :=
  m.filter (fun e => decide (e.1 < k)) ++ (k, v) :: m.filter (fun e => decide (k < e.1))
/-- Removes an entry of a table. -/
def tabDel {α : Type} (m : List (Nat × α)) (k : Nat) : List (Nat × α) := m.filter fun e => e.1 != k

/-- Adds a number to a set. -/
def setAdd (m : NatSet) (k : Nat) : NatSet :=
  m.filter (fun e => decide (e < k)) ++ k :: m.filter (fun e => decide (k < e))
/-- Removes a number from a set. -/
def setDel (m : NatSet) (k : Nat) : NatSet := m.filter fun e => e != k
/-- Adds or removes a number. -/
def setPut (m : NatSet) (k : Nat) (b : Bool) : NatSet := if b then setAdd m k else setDel m k
/-- n consecutive numbers. -/
def upFrom (a n : Nat) : List Nat := (List.range n).map (a + ·)

/-- Puts an item into a sorted list, after those it does not come before. -/
def insertBy {α : Type} (le : α → α → Bool) (x : α) : List α → List α
  | [] => [x]
  | y :: ys => if le x y then x :: y :: ys else y :: insertBy le x ys
/-- A list in order; items that are level keep their order. -/
def sortBy {α : Type} (le : α → α → Bool) (l : List α) : List α := l.foldr (insertBy le) []

/-! ### The parts of the state -/

namespace State

/-- A core. -/
def core (s : State) (c : CoreId) : Core := s.cores[c]
/-- The core whose operations run. -/
def me (s : State) : Core := s.core s.cur
/-- Replaces a core. -/
def setCore (s : State) (c : CoreId) (k : Core) : State := { s with cores := s.cores.set c k }
/-- Changes a core. -/
def modCore (s : State) (c : CoreId) (f : Core → Core) : State := s.setCore c (f (s.core c))
/-- Changes the core whose operations run. -/
def modMe (s : State) (f : Core → Core) : State := s.modCore s.cur f
/-- Changes the device. -/
def modD (s : State) (f : Dev → Dev) : State := { s with d := f s.d }

end State

namespace Core

/-- Changes the registers. -/
def modR (k : Core) (f : Regs → Regs) : Core := { k with r := f k.r }
/-- Changes the status words. -/
def modW (k : Core) (f : Sw → Sw) : Core := { k with w := f k.w }
/-- Changes the front end. -/
def modF (k : Core) (f : Front → Front) : Core := { k with f := f k.f }
/-- Changes the queues. -/
def modQ (k : Core) (f : Queues → Queues) : Core := { k with q := f k.q }
/-- Changes the matrix engine. -/
def modMx (k : Core) (f : Array_ → Array_) : Core := { k with mx := f k.mx }
/-- Changes the stores. -/
def modM (k : Core) (f : Stores → Stores) : Core := { k with m := f k.m }

end Core

/-- Die of a core (R1). -/
def dieOf (c : CoreId) : Fin 4 := ⟨c.val / 80, by omega⟩
/-- Cluster of a core, device-wide (R1). -/
def clusOf (c : CoreId) : Fin 32 := ⟨c.val / 10, by omega⟩
/-- Position of a core in its cluster (R1). -/
def posOf (c : CoreId) : Nat := c.val % 10
/-- The core at a position of a cluster. -/
def coreAt (cl : Nat) (pos : Nat) : CoreId := ⟨(cl * 10 + pos) % 320, Nat.mod_lt _ (by decide)⟩

/-! ### Plain bytes and keys -/

namespace Dev

/-- A valid key slot. -/
def keySlot (d : Dev) (k : BitVec 12) : Option KeySlot := tabGet d.keys k.toNat

/-- The key pair of a slot. -/
def keyOf (d : Dev) (k : BitVec 12) : KeyId := ((d.keySlot k).map KeySlot.key).getD .slot0

/-- The 64 KiB page of a physical address of device memory is pending scrub (R414, R415). -/
def pending (d : Dev) (pa : Nat) : Bool :=
  d.scrubG.contains (pa / 2 ^ 30) && decide (pa < Config.devBytes) && !d.scrubbed.contains (pa / 65536)

/-- The tag of a 64-byte unit. A page pending scrub reads as the scrub leaves it, under slot 0 (R415). -/
def tag (d : Dev) (unit : Nat) : UnitTag :=
  if d.pending (64 * unit) then .whole .slot0 else (tabGet d.tags unit).getD (.whole .slot0)

/-- The plain byte at a physical address: zero on a page pending scrub (R415). -/
def plainAt (d : Dev) (pa : Nat) : Byte := if d.pending pa then 0 else d.mem.get pa

/-- The plain bytes of a unit. -/
def plainUnit (d : Dev) (unit : Nat) : List Byte := (upFrom (64 * unit) 64).map d.plainAt

end Dev

/-- A unit as its own key pair deciphers it: bytes written under it, the others as its older layers read under it (R390). -/
def layerBytes (unit : Nat) (key : KeyId) (good : BitVec 64) (bytes : List Byte) : List Layer → List Byte
  | [] => bytes
  | l :: ls =>
    let old := recipher l.key key unit (layerBytes unit l.key l.good l.bytes ls)
    (List.range 64).map fun i => if good.getLsbD i then bytes.getD i 0 else old.getD i 0

/-- Whether a unit deciphers for a reader: its key pair is the reader's, or hardware wrote it in an area of the reader's context
(log 12). -/
def UnitTag.opens (t : UnitTag) (o : Opener) : Bool :=
  match t.key with
  | .area n => o.who == some n
  | k => k == o.key

namespace Dev

/-- A unit as its own key pair deciphers it. -/
def unitBytes (d : Dev) (unit : Nat) : List Byte :=
  let t := d.tag unit
  layerBytes unit t.key t.good (d.plainUnit unit) t.under

/-- The byte at a physical address as its own key pair deciphers it. -/
def ownByte (d : Dev) (pa : Nat) : Byte :=
  if (d.tag (pa / 64)).good.getLsbD (pa % 64) then d.plainAt pa else (d.unitBytes (pa / 64)).getD (pa % 64) 0

/-- The byte at a physical address as a reader deciphers it (R390, R391); the host range is not enciphered (R424). -/
def byteAt (d : Dev) (o : Opener) (pa : Nat) : Byte :=
  if Config.devBytes ≤ pa then d.mem.get pa
  else if (d.tag (pa / 64)).opens o then d.ownByte pa
  else (recipher (d.tag (pa / 64)).key o.key (pa / 64) (d.unitBytes (pa / 64))).getD (pa % 64) 0

/-- n bytes from a physical address, as a reader deciphers them. -/
def readMem (d : Dev) (o : Opener) (pa n : Nat) : List Byte := (upFrom pa n).map (d.byteAt o)

/-- The bytes of a unit that a write of n bytes at an address covers. -/
def covered (pa n u : Nat) : BitVec 64 :=
  BitVec.ofNat 64 (natOf ((List.range 8).map fun i =>
    BitVec.ofNat 8 (((List.range 8).map fun j =>
      if pa ≤ 64 * u + 8 * i + j ∧ 64 * u + 8 * i + j < pa + n then 2 ^ j else 0).sum)))

/-- The tag of a unit once n bytes at an address are written by a writer: a unit of another key pair is read, deciphered with the
writer's, and enciphered again whole (R390). -/
def tagUnit (d : Dev) (o : Opener) (pa n u : Nat) : Dev :=
  let t := d.tag u
  let c := covered pa n u
  let good := if t.opens o then t.good ||| c else c
  let t' : UnitTag := {
    key := o.key
    good := good
    under := if good = BitVec.allOnes 64 then [] else if t.opens o then t.under else ⟨t.key, t.good, d.plainUnit u⟩ :: t.under
    area := if o.who.isSome && t.area == o.who then t.area else none }
  { d with tags := if t' = .whole .slot0 then tabDel d.tags u else tabSet d.tags u t' }

/-- Bytes that hardware reads for a context, under the key of its text: page tables, images (R403; log 12). -/
def textRead (d : Dev) (x : Ctx) (pa n : Nat) : List Byte := d.readMem ⟨d.keyOf x.tkey, some x.no⟩ pa n

/-- Bytes that hardware reads for a function: what stands under a key slot of the function, of the world of its granule, is
deciphered; anything else reads as the ciphertext in memory (R403; log 12). -/
def fnRead (d : Dev) (f : FnId) (pa n : Nat) : List Byte :=
  (upFrom pa n).map fun a =>
    let key := (d.tag (a / 64)).key
    let sec := (tabGet (d.grans.toList.zipIdx.map fun g => (g.2, g.1.sec)) (a / 2 ^ 30)).getD false
    if d.keys.any fun k => k.1 != 0 && k.2.fn == some f && k.2.sec == sec && k.2.key == key then d.ownByte a
    else (xts false key.material (a / 64) (d.unitBytes (a / 64))).getD (a % 64) 0

/-- Bytes of a context's area as hardware reads them (R386, R403): what hardware wrote there for the context, also where the
context has written over it since; anything else as the key of its text deciphers it (log 12). -/
def areaRead (d : Dev) (x : Ctx) (pa n : Nat) : List Byte :=
  (upFrom pa n).map fun a => if (d.tag (a / 64)).area = some x.no then d.ownByte a else d.byteAt ⟨d.keyOf x.tkey, some x.no⟩ a

/-- A page is scrubbed: its units hold the encipherment of zero under slot 0 and no poison (R390, R414). A retired one is
skipped, and noted for the receipt (R422). -/
def scrubPage (d : Dev) (pg : Nat) : Dev :=
  let inside := fun (a w : Nat) => decide (pg * 65536 ≤ a * w) && decide (a * w < (pg + 1) * 65536)
  if d.lost.contains pg then { d with scrubbed := setAdd d.scrubbed pg, notes := d.notes ++ [(pg * 65536, 1)] }
  else { d with
    mem := d.mem.filter fun e => !inside e.1 1
    tags := d.tags.filter fun t => !inside t.1 64
    memP := d.memP.filter fun u => !inside u 64
    scrubbed := setAdd d.scrubbed pg }

/-- The pages of a byte range. -/
def pagesOf (pa n : Nat) : List Nat := if n = 0 then [] else upFrom (pa / 65536) ((pa + n - 1) / 65536 + 1 - pa / 65536)

/-- The pages of a range that are pending are scrubbed before it is written (R415). -/
def settlePages (d : Dev) (pa n : Nat) : Dev :=
  (pagesOf pa n).foldl (fun d pg => if d.pending (pg * 65536) then d.scrubPage pg else d) d

/-- A byte range lies in part on a page that a move has locked (R410). -/
def locked (d : Dev) (pa n : Nat) : Bool := (pagesOf pa n).any fun pg => d.moving.contains pg

/-- A page is redirected to its repair page, its bytes and its address as they were, and unlocked (R409, R410). -/
def redirect (d : Dev) (page : Nat) : Dev :=
  match tabGet d.moves page with
  | some r => { d with moves := tabDel d.moves page, moving := setDel d.moving page, moved := tabSet d.moved page r }
  | none => d

/-- Moves under way on the pages of a byte range come to their end (R410). -/
def finishMoves (d : Dev) (pa n : Nat) : Dev :=
  (pagesOf pa n).foldl (fun d pg => if d.moving.contains pg then d.redirect pg else d) d

/-- A byte range lies in part on a page whose data is lost (R409). -/
def gone (d : Dev) (pa n : Nat) : Bool := (pagesOf pa n).any fun pg => d.lost.contains pg

/-- A byte range lies in part on a page pending scrub. -/
def anyPending (d : Dev) (pa n : Nat) : Bool := (pagesOf pa n).any fun pg => d.pending (pg * 65536)

/-- Bytes that hardware writes for itself in an area of the n-th context, in whole units (log 12). -/
def rawWrite (d : Dev) (no : Nat) (pa : Nat) (bs : List Byte) : Dev :=
  let d := d.settlePages pa bs.length
  let n := (bs.length + 63) / 64
  { d with
    mem := d.mem.write pa bs
    tags := d.tags.filter (fun t => decide (t.1 < pa / 64))
      ++ (upFrom (pa / 64) n).map (fun u => (u, UnitTag.mk (.area no) (BitVec.allOnes 64) [] (some no)))
      ++ d.tags.filter (fun t => decide (pa / 64 + n ≤ t.1))
    memP := d.memP.filter fun u => decide (u < pa / 64) || decide (pa / 64 + n ≤ u) }

/-- The numbers of a set whose units of w bytes do not lie wholly in n bytes at an address. -/
def uncovered (w pa n : Nat) (m : NatSet) : NatSet := m.filter fun u => !(decide (pa ≤ w * u) && decide (w * u + w ≤ pa + n))

/-- Writes bytes at a physical address for a writer. A unit that is wholly written loses its poison (R406), in the host range one
of 8 bytes. -/
def writeMem (d : Dev) (o : Opener) (pa : Nat) (bs : List Byte) : Dev :=
  if bs = [] then d
  else
    let d := d.settlePages pa bs.length
    if Config.devBytes ≤ pa then { d with mem := d.mem.write pa bs, hostP := uncovered 8 pa bs.length d.hostP }
    else
      let d := (upFrom (pa / 64) ((pa + bs.length - 1) / 64 + 1 - pa / 64)).foldl (fun d u => d.tagUnit o pa bs.length u)
        { d with memP := uncovered 64 pa bs.length d.memP }
      { d with mem := d.mem.write pa bs }

/-- The areas of a context that has ended are no context's: what hardware wrote there deciphers for nobody. -/
def closeAreas (d : Dev) (no : Nat) : Dev :=
  { d with tags := d.tags.map fun t => (t.1, if t.2.area = some no then { t.2 with area := none } else t.2) }

/-- A byte range touches a unit of w bytes of a set. -/
def touches (w pa n : Nat) (m : NatSet) : Bool := m.any fun u => decide (w * u < pa + n) && decide (pa < w * u + w)

/-- Whether a byte range of memory holds a poisoned unit (R405), or the host answers a read of it with the poisoned bit (R424). -/
def memPoisoned (d : Dev) (pa n : Nat) : Bool :=
  if Config.devBytes ≤ pa then touches 8 pa n d.hostP else !d.pending pa && touches 64 pa n d.memP

/-- The host answers a read of a byte range with another error status (R424). -/
def hostFails (d : Dev) (pa n : Nat) : Bool := decide (Config.devBytes ≤ pa) && touches 8 pa n d.hostE

/-- The units of w bytes that a byte range touches. -/
def unitsOf (w pa n : Nat) : List Nat := if n = 0 then [] else upFrom (pa / w) ((pa + n - 1) / w + 1 - pa / w)

/-- The units that a byte range touches are poisoned (R405, R406); in the host range, the host's answers for them. -/
def setPoison (d : Dev) (pa n : Nat) : Dev :=
  if Config.devBytes ≤ pa then { d with hostP := (unitsOf 8 pa n).foldl setAdd d.hostP }
  else { d with memP := (unitsOf 64 pa n).foldl setAdd d.memP }

/-- The granule of a physical address in device memory (R382). -/
def granOf (pa : Nat) : Option (Fin 477) :=
  if h : pa < Config.devBytes then some ⟨pa / 2 ^ 30, by simp [Config.devBytes] at h; omega⟩ else none

/-- The owner and world of the granule of a physical address. -/
def gran (d : Dev) (pa : Nat) : Option Gran := (granOf pa).map fun g => d.grans[g]

/-- A live context (R387). -/
def ctx (d : Dev) (id : BitVec 12) : Option Ctx := d.ctxs.find? fun c => c.id == id

/-- A live caravan. -/
def car (d : Dev) (id : Nat) : Option Caravan := d.cars.find? fun c => c.id == id
/-- Changes a caravan. -/
def modCar (d : Dev) (id : Nat) (f : Caravan → Caravan) : Dev :=
  { d with cars := d.cars.map fun c => if c.id = id then f c else c }
/-- A continuation record. -/
def crec (d : Dev) (id : Nat) : Option CRec := d.recs.find? fun r => r.id == id
/-- Changes a continuation record. -/
def modRec (d : Dev) (id : Nat) (f : CRec → CRec) : Dev :=
  { d with recs := d.recs.map fun r => if r.id = id then f r else r }
/-- Changes a function. -/
def modFn (d : Dev) (f : FnId) (g : Fn → Fn) : Dev := { d with fns := d.fns.set f (g d.fns[f]) }

end Dev

/-! ### Translation -/

/-- What an access asks of its page (R254). -/
inductive Acc where
  | read | write | fetch
  | atomic (ret : Bool)
  deriving DecidableEq, Repr

/-- A leaf entry with the page it maps (R253). -/
structure Leaf where
  base : Nat
  bits : Nat               -- log2 of the page size
  r    : Bool
  w    : Bool
  x    : Bool
  u    : Bool
  kind : Nat               -- 0 SEQ, 1 ORD, 2 REL, 3 FREE
  rwin : Bool
  key  : BitVec 12
  deriving DecidableEq, Repr

/-- Layout of a table entry (R253): V, R, W, X, U, KIND, RWIN, LEAF, reserved, ADDR, KEY. -/
def pteLayout : List Nat := [1, 1, 1, 1, 1, 2, 1, 1, 3, 40, 12]

/-- The levels of the tree: index width, index position, log2 of the page a leaf maps, whether a leaf is allowed, whether
a table is (R252, R253). -/
def walkLevels : List (Nat × Nat × Nat × Bool × Bool) :=
  [(9, 39, 39, false, true), (9, 30, 30, true, true), (9, 21, 21, true, true), (5, 16, 16, true, false)]

/-- What a context may reach of memory by physical address (R386, items 1 and 4): granules of its function and not of a world
above its own. -/
def Dev.areaOk (d : Dev) (c : Ctx) (pa n : Nat) : Bool :=
  decide (pa + n ≤ Config.devBytes) &&
  (upFrom (pa / 2 ^ 30) ((pa + n - 1) / 2 ^ 30 + 1 - pa / 2 ^ 30)).all fun g =>
    match d.gran (g * 2 ^ 30) with
    | some x => x.owner == some c.fn && (c.sec || !x.sec)
    | none => false

/-- A table must lie where the context may look: in a granule of its function and not of a world above its own (R386). -/
def Dev.tableOk (d : Dev) (c : Ctx) (pa : Nat) : Bool :=
  match d.gran pa with
  | some g => g.owner == some c.fn && (c.sec || !g.sec)
  | none => !c.sec

/-- The page walk from a table on; none where it meets an invalid or malformed entry (R253, R254). Tables are read under the
key of the context's text (log 12). DESIGN CHOICE: a leaf with a reserved bit set is malformed, as R253 says of a table entry (log 81). -/
def Dev.walk (d : Dev) (c : Ctx) (va : Nat) : List (Nat × Nat × Nat × Bool × Bool) → Nat → Option Leaf
  | [], _ => none
  | (iw, ip, pb, leafOk, tabOk) :: more, tab =>
    let ea := tab + 8 * field va ip iw
    if !d.tableOk c ea then none
    else
      match unpack pteLayout (natOf (d.textRead c ea 8)) with
      | [v, r, w, x, u, kind, rwin, leaf, z, addr, key] =>
        if v = 0 ∨ z ≠ 0 then none
        else if leaf = 1 then
          (if leafOk && addr * 4096 % 2 ^ pb == 0 then
            some ⟨addr * 4096, pb, r == 1, w == 1, x == 1, u == 1, kind, rwin == 1, BitVec.ofNat 12 key⟩
          else none)
        else if tabOk && r == 0 && w == 0 && x == 0 && u == 0 && kind == 0 && rwin == 0 && key == 0 then
          d.walk c va more (addr * 4096)
        else none
      | _ => none

/-- The places of the entries that a walk reads. -/
def Dev.walkReads (d : Dev) (c : Ctx) (va : Nat) : List (Nat × Nat × Nat × Bool × Bool) → Nat → List (Nat × Nat)
  | [], _ => []
  | (iw, ip, _, _, _) :: more, tab =>
    let ea := tab + 8 * field va ip iw
    if !d.tableOk c ea then []
    else
      let e := natOf (d.textRead c ea 8)
      (ea, 8) :: (if field e 0 1 = 1 ∧ field e 8 1 = 0 then d.walkReads c va more (field e 12 40 * 4096) else [])

/-- A walk reads an entry on a page that a move has locked (R410). -/
def Dev.walkLate (d : Dev) (c : Ctx) (va : Nat) : Bool :=
  !d.moving.isEmpty && (d.walkReads c va walkLevels c.ptb.toNat).any fun p => d.locked p.1 p.2

/-- A walk reads an entry on a page whose data is lost (R409). -/
def Dev.walkGone (d : Dev) (c : Ctx) (va : Nat) : Bool :=
  !d.lost.isEmpty && (d.walkReads c va walkLevels c.ptb.toNat).any fun p => d.gone p.1 p.2

/-- The granules a page touches, and whether it reaches the host range (R386). -/
def Leaf.granules (l : Leaf) : List Nat × Bool :=
  let n := 2 ^ l.bits
  let g0 := l.base / 2 ^ 30
  ((upFrom g0 ((l.base + n - 1) / 2 ^ 30 + 1 - g0)).filter fun g => decide (max l.base (g * 2 ^ 30) < Config.devBytes),
    decide (Config.devBytes < l.base + n))

/-- The isolation checks of R386 on a leaf. -/
def Dev.leafOk (d : Dev) (c : Ctx) (l : Leaf) : Bool :=
  match d.keySlot l.key with
  | none => false
  | some k =>
    let (gs, host) := l.granules
    l.key != 0 && k.fn == some c.fn && (c.sec || !k.sec) && (!host || !c.sec)
    && (gs.all fun g =>
      match (if h : g < 477 then some (d.grans[g]) else none) with
      | some gr => gr.owner == some c.fn && gr.sec == k.sec && (c.sec || !gr.sec)
      | none => false)
    && (!host || !k.sec)

/-- A physical place an access reaches: address, key identity, page kind, reduction window, bytes left on the page. -/
structure Place where
  pa   : Nat
  key  : Opener
  kslot : BitVec 12
  kind : Nat
  rwin : Bool
  left : Nat
  deriving DecidableEq, Repr

/-- A trap of an access, its slot still open. -/
def trapAt (c : Cause) (v : Nat) : Trap := ⟨c, 0, BitVec.ofNat 64 v⟩

/-- Translation of a virtual address for an access of a context (R254, R386, R391, R392); nothing is fetched from the host
range, and no atomic goes there (R424). -/
def Dev.translate (d : Dev) (c : Ctx) (va : Nat) (acc : Acc) (user : Bool) : Except Trap Place :=
  if 2 ^ 48 ≤ va then .error (trapAt .pageFault va)
  else if d.walkGone c va then .error (trapAt .poison va)
  else
    match d.walk c va walkLevels c.ptb.toNat with
    | none => .error (trapAt .pageFault va)
    | some l =>
      let host := decide (Config.devBytes ≤ l.base + va % 2 ^ l.bits)
      let okAcc := match acc with
        | .read => l.r && !l.x
        | .write => l.w && !l.x
        | .fetch => l.x && l.key == c.tkey && !host
        | .atomic ret => l.r && l.w && !l.x && !(ret && l.rwin) && !host
      if (user && !l.u) || !okAcc || !d.leafOk c l then .error (trapAt .protection va)
      else
        let off := va % 2 ^ l.bits
        let pa := l.base + off
        let left := 2 ^ l.bits - off
        let left := if pa < Config.devBytes then min left (Config.devBytes - pa) else left
        .ok ⟨pa, ⟨d.keyOf l.key, some c.no⟩, l.key, l.kind, l.rwin, left⟩

/-- The context a core acts for: that of its status words (R383, R388). -/
def State.ctxOf (s : State) (c : CoreId) : Option Ctx := s.d.ctx (s.core c).w.ctxid

/-- A core's walk for an address waits for the end of a move (R410). -/
def State.walkLate (s : State) (c : CoreId) (va : Nat) : Bool :=
  match s.ctxOf c with
  | some x => s.d.walkLate x va
  | none => false

/-- Translation for a core's own accesses, at the level of its stream; a core that acts for no live context reaches no
page. DESIGN CHOICE: a change of a table entry shows at once, where R255 leaves an access before the stop and resume undefined
(log 82). -/
def State.xlate (s : State) (c : CoreId) (va : Nat) (acc : Acc) : Except Trap Place :=
  match s.ctxOf c with
  | some x => s.d.translate x va acc ((s.core c).w.pl == 0)
  | none => .error (trapAt .pageFault va)

/-- Bytes read through translation, page by page; a page whose data is lost faults (R409), and so does a read that the host
answers with an error status (R424). `fuel` bounds the pages. -/
def State.readVa (s : State) (c : CoreId) (acc : Acc) : Nat → Nat → Nat → Except Trap (List Byte)
  | 0, _, _ => .ok []
  | _, _, 0 => .ok []
  | fuel + 1, va, n => do
    let p ← s.xlate c va acc
    let k := min n p.left
    if s.d.gone p.pa k then .error (trapAt .poison va)
    else if s.d.hostFails p.pa k then .error (trapAt .protection va)
    else
      let rest ← s.readVa c acc fuel (va + k) (n - k)
      pure (s.d.readMem p.key p.pa k ++ rest)

/-- Bytes written through translation, page by page, every page checked before the first byte is written. -/
def State.placesVa (s : State) (c : CoreId) (acc : Acc) : Nat → Nat → Nat → Except Trap (List (Place × Nat))
  | 0, _, _ => .ok []
  | _, _, 0 => .ok []
  | fuel + 1, va, n => do
    let p ← s.xlate c va acc
    let k := min n p.left
    let rest ← s.placesVa c acc fuel (va + k) (n - k)
    pure ((p, k) :: rest)

/-- An access through translation must wait for the end of a move (R410). -/
def State.lateVa (s : State) (c : CoreId) (acc : Acc) (fuel va n : Nat) : Bool :=
  match s.placesVa c acc fuel va n with
  | .ok ps => (ps.any fun p => s.d.locked p.1.pa p.2) || s.walkLate c va || s.walkLate c (va + n - 1)
  | .error _ => s.walkLate c va || s.walkLate c (va + n - 1)

/-- Writes bytes over translated places in turn. -/
def Dev.writePlaces (d : Dev) : List (Place × Nat) → List Byte → Dev
  | [], _ => d
  | (p, n) :: ps, bs => (d.writeMem p.key p.pa (bs.take n)).writePlaces ps (bs.drop n)

/-- The share class of a core's accesses: the model slot of its record's caravan, or 16 where there is none (R337, R338). -/
def State.classOf (s : State) (c : CoreId) : Nat :=
  match (s.core c).car.bind s.d.car with
  | some x => x.slot.toNat
  | none => 16

/-- Device memory is accessed for a class: the 64-byte bursts are asked of the channels of its pages (R337, R338). -/
def Dev.ask (d : Dev) (cls pa n : Nat) : Dev :=
  if n = 0 ∨ Config.devBytes ≤ pa then d
  else { d with asked := (upFrom (pa / 65536) ((pa + n - 1) / 65536 + 1 - pa / 65536)).foldl (fun m p =>
      tabSet m (32 * p + cls) ((tabGet m (32 * p + cls)).getD 0
        + ((min (pa + n) (65536 * (p + 1)) - 1) / 64 + 1 - max pa (65536 * p) / 64))) d.asked }

/-- Places are accessed for a core (R338). -/
def State.charge (s : State) (c : CoreId) (ps : List (Nat × Nat)) : State :=
  s.modD fun d => ps.foldl (fun d p => d.ask (s.classOf c) p.1 p.2) d

/-! ### The spaces -/

/-- The scratchpad and offset that a local or cluster address names (R199). -/
def spadOf (c : CoreId) (sp : Space) (a : Nat) : CoreId × Nat :=
  if sp = .clu then (coreAt (clusOf c).val (field a 19 4), a % 2 ^ 19) else (c, a)

/-- Whether a core's scratchpad may be reached by a context through the cluster window (R248). -/
def State.lineOk (s : State) (t : CoreId) (x : BitVec 12) : Bool :=
  match (s.core t).lineCtx with
  | some y => x == y
  | none => true

/-- The Limits column of R199 for n bytes at a. -/
def State.spaceOk (s : State) (c : CoreId) (sp : Space) (a n : Nat) : Bool :=
  match sp with
  | .loc => decide (a < 2 ^ 19) && decide (a + n ≤ Config.spadBytes)
  | .clu => decide (a < 2 ^ 23) && decide (field a 19 4 ≤ 9) && decide (a % 2 ^ 19 + n ≤ Config.spadBytes)
      && s.lineOk (spadOf c sp a).1 (s.core c).w.ctxid
  | .glob => true
  | .ws => decide (a < 2 ^ 30) && decide (a + n ≤ Config.wsBytes)
  | .spill => decide (a + n ≤ Config.spillBytes)
  | .handle => true

/-- The lines that n bytes at an offset touch. -/
def linesOf (off n : Nat) : List Nat := if n = 0 then [] else upFrom (off / 128) ((off + n - 1) / 128 + 1 - off / 128)

/-- Whether every line of a byte range is full (R204). -/
def Core.full (k : Core) (off n : Nat) : Bool := (linesOf off n).all fun l => !k.m.empty.contains l

/-- Sets the full/empty bits of lines (R247). -/
def Core.mark (k : Core) (ls : List Nat) (full : Bool) : Core :=
  k.modM fun m => { m with empty := ls.foldl (fun e l => setPut e l (!full)) m.empty }

/-- Writes bytes into a scratchpad; a line wholly written loses its poison (R406). -/
def Core.writeSpad (k : Core) (off : Nat) (bs : List Byte) : Core :=
  k.modM fun m => { m with
    spad := m.spad.write off bs
    spadP := m.spadP.filter fun l => !(decide (off ≤ 128 * l) && decide (128 * l + 128 ≤ off + bs.length)) }

/-- Whether a byte range of a scratchpad holds a poisoned line (R404). -/
def Core.spadPoisoned (k : Core) (off n : Nat) : Bool := (linesOf off n).any fun l => k.m.spadP.contains l

/-- A core addresses lines of a scratchpad: one that nobody holds takes the core's context and caravan (R248). -/
def State.claim (s : State) (c t : CoreId) : State :=
  s.modCore t fun k => { k with
    lineCtx := k.lineCtx.orElse fun _ => some (s.core c).w.ctxid
    lineCar := k.lineCar.orElse fun _ => (s.core c).car }

/-- Writes bytes into a core's scratchpad on behalf of another core (R248). -/
def State.writeSpad (s : State) (c t : CoreId) (off : Nat) (bs : List Byte) : State :=
  (s.claim c t).modCore t fun k => k.writeSpad off bs

/-! ### Handles -/

/-- A handle entry (R257). -/
structure Handle where
  base : Nat
  nbase : Nat
  ext : List Nat           -- four extents, a missing one 1 (R202)
  nd : Nat                 -- number of extents
  fmt : Fmt
  tag : Nat
  ntag : Nat
  conv : Bool
  cbar : BitVec 4
  bmp : Nat
  gdone : Nat
  win : Nat
  entry : Nat              -- address of the entry
  raw : Nat                -- its 512 bits
  deriving DecidableEq, Repr

/-- Layout of a handle entry (R257): BASE, NBASE, X0..X3, ND, FMT, TAG, NTAG, STATE, CBAR, reserved, BMP, GDONE, reserved,
WIN. -/
def handleLayout : List Nat := [64, 64, 16, 16, 16, 16, 2, 4, 3, 3, 2, 4, 46, 64, 32, 32, 128]

/-- Tags allowed for an entry (R242): codes 0 ROW, 1 COL, 2 T32, 3 T64, 4 T128, 5 K128, 6 NHWC, 7 C32. -/
def tagOk (nd : Nat) (f : Fmt) (tag : Nat) : Bool :=
  match tag with
  | 0 | 1 => true
  | 2 | 3 | 4 => decide (2 ≤ nd)
  | 5 => decide (2 ≤ nd) && (f == .e4m3 || f == .i8 || f == .n8)
  | _ => nd == 4

/-- The handle of an entry's bits; none where R259 says that the number names no handle. -/
def handleOf (entry raw : Nat) : Option Handle :=
  match unpack handleLayout raw with
  | [base, nbase, x0, x1, x2, x3, nd, fmt, tag, ntag, st, cbar, z0, bmp, gdone, z1, win] =>
    let f := Fmt.ofCode fmt
    let n := nd + 1
    if (st = 1 ∨ st = 2) ∧ fmt ≠ 0 ∧ base % 65536 = 0 ∧ z0 = 0 ∧ z1 = 0 ∧ win / 2 ^ 80 = 0
        ∧ (1 < n ∨ x1 = 0) ∧ (2 < n ∨ x2 = 0) ∧ (3 < n ∨ x3 = 0) ∧ tagOk n f tag
        ∧ (st = 1 ∨ (nbase % 65536 = 0 ∧ tagOk n f ntag)) then
      some ⟨base, nbase, [x0 + 1, x1 + 1, x2 + 1, x3 + 1], n, f, tag, ntag, st == 2, BitVec.ofNat 4 cbar, bmp, gdone, win,
        entry, raw⟩
    else none
  | _ => none

namespace Handle

/-- Extent i. -/
def e (h : Handle) (i : Nat) : Nat := h.ext.getD i 1

/-- Pt(E, t) of R260. -/
def pad (e t : Nat) : Nat := t * ((e + t - 1) / t)

/-- The padded extents P0 and P1 of a tag (R260). -/
def padded (h : Handle) (tag : Nat) : Nat × Nat :=
  match tag with
  | 2 => (pad (h.e 0) 32, pad (h.e 1) 32)
  | 3 => (pad (h.e 0) 64, pad (h.e 1) 64)
  | 4 => (pad (h.e 0) 128, pad (h.e 1) 128)
  | 5 => (pad (h.e 0) 64, pad (h.e 1) 128)
  | 7 => (pad (h.e 0) 32, h.e 1)
  | _ => (h.e 0, h.e 1)

/-- L of R260. -/
def place (h : Handle) (tag c0 c1 c2 c3 : Nat) : Nat :=
  let q := c3 * h.e 2 + c2
  let (p0, p1) := h.padded tag
  let tile := fun (t : Nat) => q * p0 * p1 + (c1 / t * (p0 / t) + c0 / t) * (t * t) + c1 % t * t + c0 % t
  match tag with
  | 1 => (q * h.e 0 + c0) * h.e 1 + c1
  | 2 => tile 32
  | 3 => tile 64
  | 4 => tile 128
  | 5 => q * p0 * p1 + (c0 / 64 * (p1 / 128) + c1 / 128) * 8192 + c1 % 128 * 64 + c0 % 64
  | 7 => (((c3 * (p0 / 32) + c0 / 32) * h.e 2 + c2) * h.e 1 + c1) * 32 + c0 % 32
  | _ => (q * h.e 1 + c1) * h.e 0 + c0

/-- Whether coordinates lie inside the extents (R202). -/
def inside (h : Handle) (c0 c1 c2 c3 : Nat) : Bool :=
  decide (c0 < h.e 0) && decide (c1 < h.e 1) && decide (c2 < h.e 2) && decide (c3 < h.e 3)

/-- Granules along coordinates 0 and 1, and in all (R262). -/
def grid (h : Handle) : Nat × Nat × Nat :=
  let a := (h.e 0 + 127) / 128
  let b := (h.e 1 + 127) / 128
  (a, b, a * b * h.e 2 * h.e 3)

/-- The granule of coordinates (R262). -/
def granule (h : Handle) (c0 c1 c2 c3 : Nat) : Nat :=
  let (a, b, _) := h.grid
  ((c3 * h.e 2 + c2) * b + c1 / 128) * a + c0 / 128

/-- The address of the bitmap byte that holds the bit of coordinates' granule (R262). -/
def bitmapVa (h : Handle) (c0 c1 c2 c3 : Nat) : Nat := h.bmp + h.granule c0 c1 c2 c3 / 8

/-- Bytes of the region of a tag, before rounding (R261). -/
def regionBytes (h : Handle) (tag : Nat) : Nat :=
  let (p0, p1) := h.padded tag
  p0 * p1 * h.e 2 * h.e 3 * h.fmt.width / 8

/-- What an element outside the extents reads as: zero, or canonical undefined in a phasor format (R208). -/
def outside (h : Handle) : Nat :=
  match h.fmt with
  | .ph8 | .ph16 => 1
  | .phc32 => 0x00010000
  | _ => 0

end Handle

/-- The entry of handle h for a core, read through translation (R256, R259). -/
def State.handle (s : State) (c : CoreId) (h : Nat) : Except Trap Handle :=
  let w := (s.core c).w.htb.toNat
  if w % 2 = 0 ∨ field w 48 12 < h then .error (trapAt .layoutFault h)
  else do
    let ea := field w 6 42 * 64 + 64 * h
    let bs ← s.readVa c .read 2 ea 64
    match handleOf ea (natOf bs) with
    | some x => pure x
    | none => .error (trapAt .layoutFault h)

/-- The entry of a handle lies on a page that a move has locked (R410). -/
def State.handleLate (s : State) (c : CoreId) (h : Nat) : Bool :=
  s.lateVa c .read 2 (field (s.core c).w.htb.toNat 6 42 * 64 + 64 * h) 64

/-- Where the redirector sends an element: the virtual address under the tag in force (R266). A granule step is one step
of the model, so no granule is found locked. -/
def State.elementVa (s : State) (c : CoreId) (h : Handle) (c0 c1 c2 c3 : Nat) : Except Trap Nat := do
  let g := h.granule c0 c1 c2 c3
  let moved ← if h.conv then do
      let b ← s.readVa c .read 1 (h.bmp + g / 8) 1
      pure (((natOf b) / 2 ^ (g % 8)) % 2 == 1)
    else pure false
  let (base, tag) := if moved then (h.nbase, h.ntag) else (h.base, h.tag)
  pure (base + h.place tag c0 c1 c2 c3 * h.fmt.width / 8)

end Sys2Proof.Machine
end

