-- ==== Sys2Proof/Machine/Ops.lean ====
section
/-! DEFINITION. The shared operations of the machine: writing results and shifting latches (R19, R20, R24), arrivals
(R226), determinism events (R306), the fall of an interface (R396), taking a stop with its context area and records (R342
to R357), and the return from a stop (R358) beside it. -/

namespace Sys2Proof.Machine
open Sys2Proof

/-! ### Monitors -/

/-- BINi for a sample (R420). -/
def binOf (v : Nat) : Nat := if v = 0 then 0 else min 15 (Nat.log2 v + 1)

/-- A 32-bit count that saturates (R419). -/
def sat32 (n : Nat) : BitVec 32 := BitVec.ofNat 32 (min n (2 ^ 32 - 1))

/-- One sample (R420). -/
def Mon.sample (m : Mon) (v : Nat) : Mon :=
  { m with
    mn := sat32 (min m.mn.toNat v)
    mx := sat32 (max m.mx.toNat v)
    bins := m.bins.set! (binOf v) (sat32 ((m.bins.getD (binOf v) 0).toNat + 1)) }

/-- Samples taken by the monitor of a cluster that watches a quantity, and for queue depth a queue (R419). -/
def Dev.sample (d : Dev) (cl : Fin 32) (qty : Nat) (sel : Option Nat) (vs : List Nat) : Dev :=
  let m := d.monC[cl]
  if field m.qty.toNat 0 3 = qty ∧ ((sel.map fun q => field m.qty.toNat 3 4 == q).getD true) = true then
    { d with monC := d.monC.set cl (vs.foldl Mon.sample m) }
  else d

/-! ### Results -/

/-- A write of word A or word B of a dcause entry (R305). -/
def dcauseWrite (old : W128) (wordA : Bool) (v : W64) : W128 :=
  if wordA then BitVec.ofNat 128 (v.toNat % 2 ^ 32 + old.toNat / 2 ^ 64 * 2 ^ 64)
  else BitVec.ofNat 128 (old.toNat % 2 ^ 64 + v.toNat % 2 ^ 48 * 2 ^ 64)

namespace Core

/-- Writes a scalar register: 64 bits, or the low 32 (R15). -/
def writeS (k : Core) (r : Fin 64) (w32 : Bool) (v : W64) (poison : Bool) : Core :=
  k.modR fun x => { x with
    s := x.s.set r (if w32 then (v &&& 0xFFFFFFFF) ||| (x.s[r] &&& 0xFFFFFFFF00000000) else v)
    sp := if poison then x.sp ||| BitVec.twoPow 64 r else if w32 then x.sp else x.sp &&& ~~~BitVec.twoPow 64 r }

/-- Writes a register of the shadow set (R137). -/
def writeSh (k : Core) (r : Fin 16) (w32 : Bool) (v : W64) (poison : Bool) : Core :=
  k.modR fun x => { x with
    sh := x.sh.set r (if w32 then (v &&& 0xFFFFFFFF) ||| (x.sh[r] &&& 0xFFFFFFFF00000000) else v)
    shp := if poison then x.shp ||| BitVec.twoPow 16 r else if w32 then x.shp else x.shp &&& ~~~BitVec.twoPow 16 r }

/-- Writes the byte lanes of a vector register under a mask (R16, R18). -/
def writeV (k : Core) (r : Fin 64) (mask : W128) (v : W1024) (poison : Bool) : Core :=
  k.modR fun x => { x with
    v := x.v.set r (mergeBytes mask v x.v[r])
    vp := if poison then x.vp ||| BitVec.twoPow 64 r
          else if mask = BitVec.allOnes 128 then x.vp &&& ~~~BitVec.twoPow 64 r else x.vp }

/-- Writes bits of a guard; a write to g0 is discarded (R17). -/
def writeG (k : Core) (r : Fin 16) (mask v : W128) (poison : Bool) : Core :=
  if r = 0 then k
  else k.modR fun x => { x with
    g := x.g.set r (mergeBits mask v x.g[r])
    gp := if poison then x.gp ||| BitVec.twoPow 16 r
          else if mask = BitVec.allOnes 128 then x.gp &&& ~~~BitVec.twoPow 16 r else x.gp }

/-- Writes a front parameter (R34). -/
def writeMp (k : Core) (r : Fin 8) (v : W64) (poison : Bool) : Core :=
  k.modR fun x => { x with
    mp := x.mp.set r v
    mpp := if poison then x.mpp ||| BitVec.twoPow 8 r else x.mpp &&& ~~~BitVec.twoPow 8 r }

/-- Writes bytes of a bank row (R161). -/
def writeRow (k : Core) (b : Fin 16) (row : Fin 32) (mask : W128) (v : W1024) : Core :=
  let i := 32 * b.val + row.val
  k.modM fun m => { m with
    bank := m.bank.set i (mergeBytes mask v (m.bank.get i))
    bankP := if mask = BitVec.allOnes 128 then setDel m.bankP i else m.bankP }

/-- Writes a status word's defined bits, by its number (R22, R37, R127 to R129, R196, R295, R305, R346, R364). -/
def writeSw (k : Core) (n : Nat) (v : W64) : Core :=
  if 0x040 ≤ n ∧ n < 0x060 then
    let e := (n - 0x040) / 2
    k.modW fun w => { w with dcause := w.dcause.set! e (dcauseWrite (w.dcause.getD e 0) (n % 2 == 0) v) }
  else
    k.modW fun w => match n with
      | 0x000 => { w with flags := v.extractLsb' 8 5 }
      | 0x001 => { w with rb := v.setWidth 4 }
      | 0x002 => { w with lc := v.setWidth 32 }
      | 0x003 => { w with ec := v.setWidth 5 }
      | 0x004 => { w with sfc := v.setWidth 32 }
      | 0x005 => { w with flo := v.setWidth 19 }
      | 0x006 => { w with fhi := v.setWidth 19 }
      | 0x007 => { w with fsp := v.setWidth 19 }
      | 0x008 => { w with ovb := v }
      | 0x009 => { w with ovp := v }
      | 0x00A => { w with htb := v &&& 0x0FFFFFFFFFFFFFC1 }
      | 0x00B => { w with mrow := v &&& 0x000001FFFF0FFFFF }
      | 0x00C => { w with aown := v &&& 0x0000000FFFFF1FFF }
      | 0x00E => { w with uiv := (v.setWidth 48) &&& ~~~1 }
      | 0x00F => { w with uis := v.setWidth 51 }
      | 0x010 => { w with cause := v &&& 0xFFF }
      | 0x011 => { w with cdata := v }
      | 0x012 => { w with xpc := v.setWidth 48 }
      | 0x014 => { w with carea := v &&& 0x000FFFFFFFFFF000 }
      | 0x015 => { w with slice := v.setWidth 32 }
      | 0x016 => { w with svec := (v.setWidth 48) &&& ~~~63 }
      | _ => w

/-- ksr (R128). -/
def ksr (k : Core) : W64 :=
  BitVec.ofNat 64 (k.w.pl.toNat + 4 * bit k.w.det + 8 * bit k.w.uih + 16 * bit k.w.sec + 256 * k.w.flags.toNat)

/-- Shifts a latch group by one result (R23, R24). -/
def shiftLatch (k : Core) (grp : Fin 4) (v : W1024) (poison : Bool) : Core :=
  let b := 4 * grp.val
  k.modR fun x => { x with
    x := (((x.x.set! (b + 3) (x.x.getD (b + 2) 0)).set! (b + 2) (x.x.getD (b + 1) 0)).set! (b + 1) (x.x.getD b 0)).set! b v
    xv := BitVec.ofNat 16 (x.xv.toNat - field x.xv.toNat b 4 * 2 ^ b + (field x.xv.toNat b 4 * 2 + 1) % 16 * 2 ^ b)
    xp := BitVec.ofNat 16 (x.xp.toNat - field x.xp.toNat b 4 * 2 ^ b
      + (field x.xp.toNat b 4 * 2 + bit poison) % 16 * 2 ^ b) }

/-- Places a value at a register destination under a mask; the other destinations belong to the device (R19). -/
def place (k : Core) (d : Dest) (val : W1024) (mask : W128) (poison : Bool) : Core :=
  match d with
  | .s r w32 => k.writeS r w32 (val.setWidth 64) poison
  | .sh r w32 => k.writeSh r w32 (val.setWidth 64) poison
  | .v r => k.writeV r mask val poison
  | .g r => k.writeG r mask (val.setWidth 128) poison
  | .mp r => k.writeMp r (val.setWidth 64) poison
  | .bank b row => k.writeRow b row mask val
  | .sw n => k.writeSw n (val.setWidth 64)
  | .none | .bar _ _ | .fmask _ => k

/-- A result retires: its write, the shift of its latch group and its flags (R19, R24, R145). -/
def retire (k : Core) (p : Pend) : Core :=
  let k := k.place p.dest p.val p.mask p.poison
  let k := match p.shift with
    | some g => k.shiftLatch g p.latch p.poison
    | none => k
  k.modW fun w => { w with flags := w.flags ||| p.flags }

/-- An arrival of the core's own by the operation at a place in issue order, made at the end of this cycle (R226). -/
def arrive (k : Core) (seq : Nat) (a : Option (BitVec 4)) : Core :=
  match a with
  | some b => k.modQ fun q => { q with arr := q.arr ++ [(b, seq)] }
  | none => k

/-- An arrival of an engine acting for the core, applied later (R226). -/
def arriveLater (k : Core) (seq : Nat) (a : Option (BitVec 4)) : Core :=
  match a with
  | some b => k.modQ fun q => { q with earr := q.earr ++ [(b, seq)] }
  | none => k

/-- Adds a result to those that wait for their cycle. -/
def push (k : Core) (p : Pend) : Core := k.modQ fun q => { q with pend := q.pend ++ [p] }

/-- A result with no write, shift, flag or arrival, due at the end of this cycle: the others are made from it. -/
def blank (k : Core) (ord unit : Nat) (body : W64) (arr : Option (BitVec 4)) : Pend where
  due := k.f.cyc
  ord := ord
  seq := k.f.seq + (if unit = 9 then 7 else unit)
  ipc := k.f.ipc
  unit := unit
  body := body
  dest := .none
  val := 0
  mask := BitVec.allOnes 128
  shift := none
  latch := 0
  flags := 0
  poison := false
  arr := arr
  hnd := k.inHandler
  fault := none

/-! ### Determinism events -/

/-- Records an event in dcause (R306). -/
def record (k : Core) (code : Nat) (pc : W64) : Core :=
  let es := k.w.dcause.toList
  let codeOf := fun (e : W128) => field e.toNat 0 8
  let cnt := fun (e : W128) => field e.toNat 8 24
  let mk := fun (c n p : Nat) => BitVec.ofNat 128 (c + n * 2 ^ 8 + p * 2 ^ 64)
  let p := pc.toNat % 2 ^ 48
  match (es.take 15).findIdx? fun e => codeOf e == code && field e.toNat 64 48 == p with
  | some i => k.modW fun w => { w with dcause := w.dcause.set! i (mk code (min (cnt (es.getD i 0) + 1) (2 ^ 24 - 1)) p) }
  | none =>
    match (es.take 15).findIdx? fun e => codeOf e == 0 with
    | some i => k.modW fun w => { w with dcause := w.dcause.set! i (mk code 1 p) }
    | none =>
      let e := es.getD 15 0
      let q := if codeOf e = 0 then p else field e.toNat 64 48
      k.modW fun w => { w with dcause := w.dcause.set! 15 (mk 0xFF (min (cnt e + 1) (2 ^ 24 - 1)) q) }

/-- An event of this cycle: dcause holds it from the end of the cycle on (R306). -/
def event (k : Core) (code : Nat) (pc : W64) : Core :=
  k.modF fun f => { f with evs := f.evs ++ [(code, pc &&& 0xFFFFFFFFFFFF)] }

/-- The events of a cycle are recorded, by rising code and then by rising address (R306). -/
def flushEvents (k : Core) : Core :=
  (sortBy (fun (a b : Nat × W64) => decide (a.1 < b.1) || (a.1 == b.1 && decide (a.2 ≤ b.2))) k.f.evs).foldl
    (fun k e => k.record e.1 e.2) (k.modF fun f => { f with evs := [] })

/-- Issue is held, by an SY operation or by one of R139 in the S slot. -/
def holding (k : Core) : Bool := k.q.hold.isSome || k.q.shold.isSome

end Core

/-! ### Barriers -/

/-- arrive of R226, by a core at a place in its issue order: it is a release (R230). `own`: the core makes it itself. -/
def Bar.arrive (core before : Nat) (own : Bool) (o : Bar) : Bar :=
  let o := { o with rel := o.rel ++ [Release.mk (bit o.phase) core before none] }
  let flips := if own then setAdd o.flips core else o.flips
  if o.pend = 0 then { o with broken := true, flips := flips }
  else if o.pend = 1 then
    { o with
      pend := o.part, phase := !o.phase, flips := flips
      rel := o.rel.filter fun r => r.mark == bit o.phase }
  else { o with pend := o.pend - 1 }

/-- The object's bits (R225). -/
def Bar.bits (o : Bar) : W64 :=
  BitVec.ofNat 64 (o.pend + o.part * 2 ^ 20 + bit o.phase * 2 ^ 40 + bit o.broken * 2 ^ 41)

/-- A barrier object of the caravan a core is bound to. -/
def State.bar (s : State) (c : CoreId) (b : Fin 16) : Bar :=
  match (s.core c).car.bind s.d.car with
  | some x => x.bars[b]
  | none => .zero

/-- Waiting records whose condition has come to hold, with what their wake acquires (R230, R236). -/
def Dev.notice (d : Dev) (p : CRec → Bool) (acq : CRec → List Release) : Dev :=
  { d with recs := d.recs.map fun r =>
      if r.st = .waiting ∧ p r = true then { r with wait := .none, acq := r.acq ++ acq r } else r }

/-- Changes a barrier object of a caravan; records suspended on it see a new phase (R236). -/
def Dev.modBar (d : Dev) (id : Nat) (b : Fin 16) (f : Bar → Bar) : Dev :=
  let d := d.modCar id fun x => { x with bars := x.bars.set b (f x.bars[b]) }
  match d.car id with
  | none => d
  | some x =>
    let o := x.bars[b]
    let ph := fun (r : CRec) => match r.wait with
      | .bar n ph => if n = b then some ph else none
      | _ => none
    d.notice (fun r => r.car == id && ph r == some (!o.phase)) fun r =>
      o.rel.filter fun q => some q.mark == (ph r).map bit

/-- Changes a barrier object of the caravan a core is bound to. -/
def State.modBar (s : State) (c : CoreId) (b : Fin 16) (f : Bar → Bar) : State :=
  match (s.core c).car with
  | some id => s.modD fun d => d.modBar id b f
  | none => s

/-! ### Ending streams, caravans and contexts -/

/-- A core left by its stream: nothing runs, nothing is queued, it is bound to no caravan (R396). -/
def Core.vacate (k : Core) : Core :=
  { k with
    q := { Queues.reset with openBatch := k.q.openBatch }
    mx := { k.mx with q := [], comp := [], late := [] }
    rg := .reset
    car := none
    unbind := false
    run := none
    sup := false
    supSelf := false
    preempt := false
    expired := false
    seif := none
    f := { k.f with held := false, frozen := false, bankFrozen := false, frz := 0, hcyc := 0, brk := none, next := none,
                    leave := none, evs := [] } }

namespace Dev

/-- A caravan and its records are gone (R326, R389, R396). -/
def dropCar (d : Dev) (id : Nat) : Dev :=
  { d with
    cars := d.cars.filter fun c => c.id != id
    recs := d.recs.filter fun r => r.car != id
    susp := d.susp.filter fun x => !d.recs.any fun r => r.id == x.run && r.car == id }

/-- The error-reporting register of a function changes; vector 1 is raised where a bit goes from 0 to 1 (R400, R430). -/
def setErr (d : Dev) (f : FnId) (v : W64) : Dev :=
  let old := d.fns[f].err
  let d := d.modFn f fun x => { x with err := v }
  if v &&& ~~~old = 0 then d else { d with msix := (f, 1) :: d.msix }

/-- Bits of a function's error-reporting register are set (R400). -/
def report (d : Dev) (f : FnId) (bits : W64) : Dev := d.setErr f (d.fns[f].err ||| bits)

/-- ERR of a queue is set, and with it QERR of the function that owns the queue (R318, R400). -/
def queueErr (d : Dev) (q : Fin 64) : Dev :=
  { d with qs := d.qs.set q { d.qs[q] with err := true } }.report d.qs[q].fn 1

/-- Discards the pending launches of queues that a test picks: each sets ERR, with no completion word (R326, R389). -/
def dropLaunches (d : Dev) (p : LQueue → Bool) : Dev :=
  (List.finRange 64).foldl (fun (d : Dev) q =>
    if p d.qs[q] && !d.qs[q].recs.isEmpty then
      { d with qs := d.qs.set q { d.qs[q] with recs := [] } }.queueErr q
    else d) d

end Dev

/-- A freeze, or else a hold, that a stop cuts short is sampled as it stands (R293, R420). -/
def State.sampleCut (s : State) (c : CoreId) : State :=
  let f := (s.core c).f
  if f.frozen then s.modD fun d => d.sample (clusOf c) 2 none [f.frz]
  else if f.held || (s.core c).holding then s.modD fun d => d.sample (clusOf c) 2 none [f.hcyc]
  else s

/-- Ends every caravan that a test picks, with no completion write: its records are discarded and its cores are released
(R389, R396). -/
def State.endCars (s : State) (p : Caravan → Bool) : State :=
  let ids := (s.d.cars.filter p).map Caravan.id
  let s := ((List.finRange 320).filter fun c => (s.core c).car.any ids.contains).foldl State.sampleCut s
  { s with
    cores := (s.cores.map fun k => match k.car with
      | some id => if ids.contains id then k.vacate else k
      | none => k).map fun k => { k with lineCar := k.lineCar.filter fun id => !ids.contains id }
    d := ids.foldl Dev.dropCar s.d }

/-- Whether a context id names a live context of a function and, if asked, of the secure world. -/
def Dev.ctxIs (d : Dev) (id : BitVec 12) (f : FnId) (secOnly : Bool) : Bool :=
  match d.ctx id with
  | some c => c.fn == f && (!secOnly || c.sec)
  | none => false

/-- The fall of a function's interface to ERROR (R393, R396, R400): secure keys erased, secure streams, caravans and
pending launches discarded, these with no completion word (log 116), IFERR and IFWHY set. `always`: the event moves any state (R434). -/
def State.fall (s : State) (f : FnId) (why : Nat) (always : Bool) : State :=
  if s.d.fns[f].iface = .locked ∨ s.d.fns[f].iface = .run ∨ always then
    let s := s.modD fun d =>
      let d := (d.modFn f fun x => { x with iface := .error }).setErr f
        ((d.fns[f].err &&& ~~~0x38) ||| 4 ||| BitVec.ofNat 64 (8 * why))
      { d with keys := d.keys.filter fun k => !(k.2.sec && k.2.fn == some f) }
    let sec := fun (id : BitVec 12) => s.d.ctxIs id f true
    let s := s.endCars fun c => sec c.ctx
    let s := s.modD fun d => { d with recs := d.recs.filter fun r => !sec r.ctx }
    s.modD fun d => d.dropLaunches fun q => sec q.ctx
  else s

/-- The stream that caused a fall is ended, whatever its world: its caravan ends with no completion write (R396). -/
def State.endStream (s : State) (c : CoreId) : State :=
  match (s.core c).car with
  | some id => s.endCars fun x => x.id == id
  | none => (s.sampleCut c).modCore c Core.vacate

/-! ### Reaching memory -/

/-- What an access to read finds: nothing yet, a fault, or bytes with their poison. -/
inductive Get where
  | late
  | bad (t : Trap)
  | ok (bs : List Byte) (poison : Bool)
  deriving DecidableEq, Repr

namespace State

/-- A data write that reaches a function's supervisor text while its interface is locked or running: a locked item has
changed (R348, R395). -/
def textWritten (s : State) (ps : List (Nat × Nat)) : State :=
  (List.finRange 8).foldl (fun (s : State) f =>
    let x := s.d.fns[f]
    if ps.any fun p => decide (p.1 < x.svec.toNat + x.stlen.toNat) && decide (x.svec.toNat < p.1 + p.2) then s.fall f 1 false else s) s

/-- Records dcause event 0x02 where an access waits on a page pending scrub (R307, R415). -/
def noteScrub (s : State) (c : CoreId) (ipc : W64) (ps : List (Place × Nat)) : State :=
  if ps.any fun p => s.d.anyPending p.1.pa p.2 then s.modCore c fun k => k.event 0x02 ipc else s

/-- What an access through translation leaves behind: its charge, and where it waits on pages pending scrub, the event and the
pages scrubbed (R307, R338, R415). Where it waits for a move, that comes to its end (log 102). -/
def noteVa (s : State) (c : CoreId) (ipc : W64) (acc : Acc) (va n : Nat) : State :=
  match s.placesVa c acc 16 va n with
  | .ok ps => ((s.noteScrub c ipc ps).charge c (ps.map fun p => (p.1.pa, p.2))).modD
      fun d => ps.foldl (fun d p => (d.finishMoves p.1.pa p.2).settlePages p.1.pa p.2) d
  | .error _ => s

/-- The same of physical places that hardware reads or writes for a core (R307, R338, R410, R415). -/
def notePa (s : State) (c : CoreId) (ipc : W64) (pa n : Nat) : State :=
  let s := if s.d.anyPending pa n then s.modCore c fun k => k.event 0x02 ipc else s
  (s.charge c [(pa, n)]).modD fun d => (d.finishMoves pa n).settlePages pa n

/-- Translated places, checked for lost and locked pages (R409, R410) and for what the host answers a read with (R424): late, or a
fault, or the places. -/
def reach (s : State) (c : CoreId) (acc : Acc) (a n : Nat) : Get × List (Place × Nat) :=
  if s.walkLate c a || s.walkLate c (a + n - 1) then (.late, [])
  else
  match s.placesVa c acc 8 a n with
  | .error t => (.bad t, [])
  | .ok ps =>
    if ps.any fun p => s.d.gone p.1.pa p.2 then (.bad (trapAt .poison a), [])
    else if acc != .write && ps.any fun p => s.d.hostFails p.1.pa p.2 then (.bad (trapAt .protection a), [])
    else if ps.any fun p => s.d.locked p.1.pa p.2 then (.late, [])
    else (.ok [] false, ps)

end State

/-! ### The context area -/

/-- Code of a cause (R343). -/
def Cause.code : Cause → Nat
  | .encoding => 1 | .width => 2 | .featureMasked => 3 | .privilege => 4 | .align => 5 | .pageFault => 6
  | .protection => 7 | .poison => 8 | .latchEmpty => 9 | .schedViolation => 10 | .schedOverrun => 11
  | .detOverlap => 12 | .barOverflow => 13 | .barBroken => 14 | .matrixFirstUse => 15 | .iregOverflow => 16
  | .layoutFault => 17 | .fabricTimeout => 18 | .break_ => 19 | .syscall => 20 | .preempt => 21

/-- The cause word (R342). -/
def causeWord (t : Trap) (async hnd sup : Bool) : W64 :=
  BitVec.ofNat 64 (t.cause.code + t.slot * 64 + bit async * 512 + bit hnd * 1024 + bit sup * 2048)

/-- A pending-operation record (R355, R356). -/
structure Rec where
  seq  : Nat
  kind : Nat
  unit : Nat
  fault : Nat
  hnd  : Bool
  done : Bool
  rem  : Nat
  ipc  : W64
  body : W64
  w3   : W64
  w4   : W64
  w5   : W64
  w6   : W64
  w7   : W64
  value : List Byte
  poison : Bool            -- the value is poisoned (log 83)
  deriving DecidableEq, Repr

/-- The bytes of a word. -/
def wordBytes (w : W64) : List Byte := bytesOf 8 w.toNat

/-- The 64 bytes of a record whose value-area part begins at `voff` (R355, R356). -/
def Rec.bytes (r : Rec) (voff : Nat) : List Byte :=
  let v := if r.value = [] then 0xFFFFFFFF else voff
  wordBytes (BitVec.ofNat 64 (r.kind + r.unit * 16 + r.fault * 256 + bit r.hnd * 2 ^ 14 + bit r.done * 2 ^ 15
    + min r.rem 4095 * 2 ^ 16 + v * 2 ^ 32))
  ++ wordBytes (r.ipc &&& 0xFFFFFFFFFFFF) ++ wordBytes r.body ++ wordBytes r.w3 ++ wordBytes r.w4 ++ wordBytes r.w5
  ++ wordBytes r.w6 ++ wordBytes r.w7

/-- The record list and the value area (R352, R355). -/
def layRecs : List Rec → Nat → List Byte × List Byte
  | [], _ => ([], [])
  | r :: rs, voff =>
    let pad := (16 - r.value.length % 16) % 16
    let v := r.value ++ List.replicate pad 0
    let (a, b) := layRecs rs (voff + v.length)
    (r.bytes voff ++ a, v ++ b)

/-- Inserts a record in issue order (R357). -/
def insertRec (r : Rec) : List Rec → List Rec
  | [] => [r]
  | x :: xs => if r.seq < x.seq then r :: x :: xs else x :: insertRec r xs

/-- Records in issue order (R357). -/
def sortRecs (rs : List Rec) : List Rec := rs.foldl (fun acc r => insertRec r acc) []

/-- The destination word of a write-back record (R356). -/
def Dest.word : Dest → Nat
  | .s r w32 => r.val * 8 + bit w32 * 2 ^ 15
  | .sh r w32 => r.val * 8 + bit w32 * 2 ^ 15
  | .v r => 1 + r.val * 8
  | .g r => 2 + r.val * 8
  | .mp r => 3 + r.val * 8
  | .bank b row => 4 + b.val * 8 + row.val * 2 ^ 10
  | .none | .sw _ | .bar _ _ | .fmask _ => 0

/-- Cycles left until the end of the cycle a result or landing is due, for a stop before cycle `now` (R355). -/
def remOf (due now : Nat) : Nat := due + 1 - now

/-- The cause code a record carries. -/
def faultCode (t : Option Trap) : Nat := (t.map fun x => x.cause.code).getD 0

/-- The record of a result not yet written (R356). A result that writes no register keeps a zero guard mask. -/
def recOfPend (now : Nat) (p : Pend) : Rec :=
  let base : Rec := ⟨p.seq, 1, p.unit, faultCode p.fault, p.hnd, false, remOf p.due now, p.ipc, p.body, BitVec.ofNat 64 p.dest.word,
    BitVec.ofNat 64 (p.flags.toNat * 256), 0, 0, 0, [], p.poison⟩
  match p.dest with
  | .s _ _ | .sh _ _ | .mp _ => { base with w5 := p.val.setWidth 64 }
  | .g _ => { base with value := bytesOf 16 p.val.toNat ++ bytesOf 16 p.mask.toNat }
  | .v _ | .bank _ _ => { base with value := bytesOf 128 p.val.toNat ++ bytesOf 16 p.mask.toNat }
  | _ => { base with w3 := 2, value := List.replicate 32 0 }

/-- The body of a store of a scalar register to an address (R82), for the record of a frame that no operation made (log 19). -/
def storeBody : W64 := (SlotOp.mem .st ⟨false, false, 0, .glob, some 0, 0, 0, 0, ⟨0, false, none⟩⟩).body

/-- The record of a memory operation (R356). That of a global frame carries the captured target of a callr in word 5, the frame
in word 6 and its address in word 7, so that its reissue performs the same access (log 19). -/
def recOfQ (unit now : Nat) (e : QEnt) : Rec :=
  let ctl := match e.kind with
    | .push | .pop => true
    | _ => false
  let rem := match e.land with
    | some l => remOf l now
    | none => 0
  if ctl then ⟨e.seq, 6, 0, faultCode e.fault, e.hnd, false, rem, e.ipc, e.body, 0, 0, e.cmp, e.data.setWidth 64, e.addr, [],
    e.poison⟩
  else
    let small := e.size ≤ 8
    let w6 := if e.kind = .op .atCas then e.cmp else 0
    ⟨e.seq, 2, unit, faultCode e.fault, e.hnd, e.done, rem, e.ipc, e.body, e.addr, BitVec.ofNat 64 e.prog,
      if small then e.data.setWidth 64 else 0, w6, 0, if small then [] else bytesOf 128 e.data.toNat,
      e.poison⟩

/-- The records of an entry of the store queue: the frame of a user interrupt, which no operation made, leaves the two stores of
8 bytes that write it (log 19). -/
def recsOfStore (now : Nat) (e : QEnt) : List Rec :=
  if e.kind = .push ∧ e.body = 0 then
    let part := fun (o : Nat) (f : Nat) (v : W64) =>
      (⟨e.seq, 2, 4, f, e.hnd, false, 0, e.ipc, storeBody, e.addr + BitVec.ofNat 64 o, 0, v, 0, 0, [], false⟩ : Rec)
    [part 0 (faultCode e.fault) (e.data.setWidth 64), part 8 0 0]
  else [recOfQ 4 now e]

/-- The MROW word of a call (R196). -/
def MxCall.mrow (m : MxCall) : W64 :=
  BitVec.ofNat 64 (m.upc + bit m.comp * 2 ^ 11 + m.row * 2 ^ 12 + m.touch.toNat * 2 ^ 24 + 2 ^ 40)

/-- The record of a matrix call (R356). -/
def recOfMx (now : Nat) (m : MxCall) : Rec :=
  ⟨m.seq, 3, 8, faultCode m.fault, m.hnd, false, remOf m.landDue now, m.ipc, m.body, 0, m.mrow, 0, 0, 0,
    (m.par.toList.map wordBytes).flatten, false⟩

/-- The record of a copy (R356). -/
def recOfCopy (openB : Nat) (c : Copy) : Rec :=
  ⟨c.seq, 4, 6, faultCode c.fault, c.hnd, false, 0, c.ipc, c.body, c.dst, BitVec.ofNat 64 c.prog, c.src, c.n,
    BitVec.ofNat 64 (c.batch % 65536 + bit (c.batch == openB) * 65536), [], c.poison⟩

/-- The record of a cp.close whose batch is outstanding (R356). -/
def recOfClose (c : Close) : Rec :=
  ⟨c.seq, 4, 6, 0, false, false, 0, c.ipc, c.body, 0, 0, 0, 0, BitVec.ofNat 64 (c.batch % 65536), [], false⟩

/-- The record of a shuffle (R356). -/
def recOfShuf (x : Shuf) : Rec :=
  ⟨x.seq, 5, 7, faultCode x.fault, x.hnd, false, 0, x.ipc, x.body, x.dst, BitVec.ofNat 64 x.prog, x.src, x.shape, x.list, [], false⟩

/-- The record of a join (R356). -/
def recOfJoin (j : Join) : Rec := ⟨j.seq, 6, 9, 0, false, false, 0, j.ipc, j.body, 0, 0, 0, 0, 0, [], false⟩

/-- The record of a held operation (R356). -/
def recOfHold (h : Hold) : Rec :=
  let (done, ph) := match h.kind with
    | .barWait _ p => (true, bit p)
    | _ => (false, 0)
  ⟨h.seq, 6, if h.slot = 0 then 0 else 9, faultCode h.fault, h.hnd, done, 0, h.ipc, h.body, 0, 0, h.sb, BitVec.ofNat 64 ph, 0, [],
    false⟩

/-- The record of an operation of the S slot that a resume has still to execute (R356, R358). -/
def recOfRedo (r : Redo) : Rec := ⟨r.seq, 6, 0, 0, r.hnd, false, 0, r.ipc, r.body, 0, 0, r.val, 0, 0, [], false⟩

/-- The record of a bundle that has not issued (R356). -/
def recOfBundle (seq : Nat) (ipc : W64) (b : W512) (hnd : Bool) : Rec :=
  ⟨seq, 7, 10, 0, hnd, false, 0, ipc, 0, 0, 0, 0, 0, 0, bytesOf 64 b.toNat, false⟩

/-- Every record a stop leaves, in issue order, the unissued bundle last (R357). Kernel results held by a handler's
freeze keep the offsets they had when kernel time stopped (R350, R351). -/
def Core.records (k : Core) (unissued : Option W512) : List Rec :=
  let now := fun (hnd : Bool) => if k.w.uih && !hnd then k.f.kcyc else k.f.cyc
  sortRecs ((k.q.pend ++ k.q.slb).map (fun p => recOfPend (now p.hnd) p)
    ++ k.q.ld.map (fun e => recOfQ 3 (now e.hnd) e) ++ k.q.st.flatMap (fun e => recsOfStore (now e.hnd) e)
    ++ k.q.at_.map (fun e => recOfQ 5 (now e.hnd) e) ++ k.mx.q.map (fun m => recOfMx (now m.hnd) m)
    ++ k.q.cp.map (recOfCopy k.q.openBatch) ++ k.q.closes.map recOfClose ++ k.q.sh.map recOfShuf
    ++ k.q.joins.map recOfJoin ++ k.q.redo.map recOfRedo ++ ((k.q.hold.filter fun h => h.kind != .restart).map recOfHold).toList
    ++ (k.q.shold.map recOfHold).toList ++ ((k.q.khold.filter fun h => h.kind != .restart).map recOfHold).toList)
  ++ (unissued.map fun b => recOfBundle (k.f.seq + 1) k.f.pc b k.w.uih).toList

/-- The bank countdown before cycle `now` (R32). -/
def countdown (due now : Nat) : Nat := due - now

/-- The progress a read of MROW returns (R197). -/
def Core.mrow (k : Core) : W64 := match k.mx.q with
  | m :: _ => m.mrow
  | [] => 0

/-- The header of a context area (R353). -/
def Core.header (k : Core) (nrec idle : Nat) : List Byte :=
  let z := fun {n : Nat} (x : BitVec n) => wordBytes (x.setWidth 64)
  let now := if k.w.uih then k.f.kcyc else k.f.cyc
  z k.w.cause ++ z k.w.cdata ++ z k.w.xpc ++ z k.w.xaddr ++ z k.ksr ++ z k.w.rb ++ z k.w.lc ++ z k.w.ec ++ z k.w.sfc
  ++ z k.w.flo ++ z k.w.fhi ++ z k.w.fsp ++ z k.w.ovb ++ z k.w.ovp ++ z k.w.htb ++ z k.w.uiv ++ z k.w.uis
  ++ z k.w.ctxid ++ z k.w.ptb ++ z k.mrow
  ++ wordBytes (BitVec.ofNat 64 (nrec + min idle 255 * 2 ^ 16 + k.q.ui.length * 2 ^ 24 + bit k.rg.opened * 2 ^ 32
      + k.rg.cx.toNat * 2 ^ 33))
  ++ z k.r.sp ++ z k.r.vp ++ wordBytes (BitVec.ofNat 64 (k.r.gp.toNat + k.r.mpp.toNat * 2 ^ 16 + k.r.shp.toNat * 2 ^ 24))
  ++ bytesOf 24 (packElts 12 (k.mx.bankDue.toList.map fun d => min (countdown d now) 4095))
  ++ List.replicate 40 0

/-- Zero bytes. -/
def zeros (n : Nat) : List Byte := List.replicate n 0

/-- The parts of a context area that a stop writes, from offset 0 to 0x24000 (R352). -/
def Core.areaImage (k : Core) (idle : Nat) (recs : List Rec) : List Byte :=
  let (rl, va) := layRecs recs 0
  let padTo := fun (n : Nat) (b : List Byte) => (b ++ zeros (n - b.length)).take n
  k.header recs.length idle ++ bytesOf 64 k.f.peb.toNat ++ bytesOf 64 k.f.hpeb.toNat
  ++ padTo 64 ((k.q.ui.map wordBytes).flatten) ++ zeros 64
  ++ (k.r.s.toList.map wordBytes).flatten ++ (k.r.g.toList.map fun g => bytesOf 16 g.toNat).flatten
  ++ (k.r.mp.toList.map wordBytes).flatten ++ (k.r.sh.toList.map wordBytes).flatten ++ zeros 64
  ++ bytesOf 64 ((k.m.spillP.map fun u => 2 ^ u).sum) ++ zeros (0x1000 - 0x640)
  ++ k.m.spill.read 0 4096 ++ (k.r.v.toList.map fun v => bytesOf 128 v.toNat).flatten
  ++ padTo 65536 rl ++ padTo 65536 va

/-- Whether a byte range lies wholly in granules of a function (R349, R389). `sec`: of one world. -/
def Dev.inGranules (d : Dev) (f : FnId) (sec : Option Bool) (pa n : Nat) : Bool :=
  decide (pa + n ≤ Config.devBytes) &&
  (upFrom (pa / 2 ^ 30) ((pa + n - 1) / 2 ^ 30 + 1 - pa / 2 ^ 30)).all fun g =>
    match d.gran (g * 2 ^ 30) with
    | some x => x.owner == some f && (match sec with | some b => x.sec == b | none => true)
    | none => false

/-- A held part of a store is written at the commit of its region (R240, R348, R395, R415); where its page waits for a move, that
comes to its end (R410; log 102). -/
def State.commitHeld (s : State) (c : CoreId) (h : Held) : Except Trap State :=
  let a := h.addr.toNat
  if h.space = .glob then
    let s := s.noteVa c h.ent.ipc .write a h.bytes.length
    match s.placesVa c .write 3 a h.bytes.length with
    | .error t => .error t
    | .ok ps =>
      if ps.any fun p => s.d.gone p.1.pa p.2 then .error (trapAt .poison a)
      else .ok ((s.modD fun d => d.writePlaces ps h.bytes).textWritten (ps.map fun p => (p.1.pa, p.2)))
  else
    let (x, off) := spadOf c h.space a
    .ok (s.writeSpad c x off h.bytes)

/-- Held parts are written in store order, up to the first that faults: that and those behind it are left. -/
def State.commitList (s : State) (c : CoreId) : List Held → State × List Held × Option Trap
  | [] => (s, [], none)
  | h :: hs => match s.commitHeld c h with
    | .ok s => s.commitList c hs
    | .error t => (s, h :: hs, some { t with slot := 5 })

/-- Held parts that could not be written stand in their queue again, one entry for each store (R240, R345). -/
def requeue (hs : List Held) (t : Option Trap) : List QEnt :=
  (hs.zipIdx.filter fun h => !(hs.take h.2).any fun g => g.ent.seq == h.1.ent.seq).map fun h =>
    { h.1.ent with prog := h.1.from_, done := false, fault := if h.2 = 0 then t else none }

/-- The held stores of the open region, committed in store order; the region goes on unbuffered (R240, R349). A store whose page has
gone stays in its queue with its fault, and with it those behind it. -/
def State.commitRegion (s : State) (c : CoreId) : State × Option Trap :=
  let (s, rest, t) := s.commitList c (s.core c).rg.held
  (s.modCore c fun k => { k with
    rg := { k.rg with held := [], unbuf := true }
    q := { k.q with st := requeue rest t ++ k.q.st.filter fun x => !rest.any fun h => h.ent.seq == x.seq } }, t)

/-- The arrivals of matrix calls whose last micro-word has finished are made at the end of a stop's hold, before the context
area is written (R173, R349). -/
def State.settleMx (s : State) (c : CoreId) : State :=
  let k := s.core c
  let s := (k.mx.late ++ k.mx.q.filter fun m => m.fin).foldl (fun (s : State) m => match m.arr with
    | some b => s.modBar c b.toFin (Bar.arrive c.val m.seq false)
    | none => s) s
  s.modCore c fun k => k.modMx fun x => { x with q := x.q.filter fun m => !m.fin, late := [], comp := [] }

/-- The core after a user stream has been put aside: in the supervisor at SVEC, queues empty, every latch invalid, every
countdown zero (R349), no region of its own open. What the core acquired still binds it (R275 case 11), but for what the stream that
it put aside has not performed. -/
def Core.enterSup (k : Core) (pc : W64) : Core :=
  { k with
    r := { k.r with xv := 0, xp := 0 }
    w := { k.w with pl := 1, uih := false }
    f := { k.f with peb := 0, hpeb := 0, pc := pc, next := none, first := true, kidle := none, knext := none, wait := 0,
                    extra := 0, fixed := none, leave := none, held := false, frozen := false, bankFrozen := false, frz := 0, hcyc := 0, brk := none, at_ := .start }
    q := { Queues.reset with
      openBatch := k.q.openBatch + 1
      earr := k.q.earr ++ k.q.arr
      walls := k.q.walls.map fun w => { w with skip := k.run } }
    mx := { k.mx with q := [], comp := [], late := [], bankDue := Vector.replicate 16 0 }
    rg := .reset
    preempt := false
    expired := false
    sup := true
    supSelf := false }

/-- A record holds an access that is not performed. -/
def Rec.unperformed (r : Rec) : Bool :=
  match r.kind with
  | 2 => !r.done
  | 3 | 4 | 5 => true
  | 6 => r.unit == 0
  | _ => false

/-- What the device keeps of a stopped stream beside its area: the accesses that a release of the stream still waits for, the acquires
that still bind its records (R230, R360), and of a kernel stopped in its handler the bundle and the idle cycles it then owed, for
which the area has no field (log 101). -/
def State.suspend (s : State) (c : CoreId) (rs : List Rec) : State :=
  match (s.core c).run with
  | none => s
  | some id =>
    let ws := (s.core c).q.walls.map fun w => { w with after := (rs.filter fun r => decide (r.seq < w.after)).length }
    let f := (s.core c).f
    let d := s.d.modRec id fun r => { r with walls := ws, kidle := f.kidle, knext := f.knext }
    { s with d := if rs.any Rec.unperformed then
        { d with susp := d.susp ++ [⟨id, c.val, rs.map fun r => (r.seq, r.unperformed), none⟩] } else d }

/-- Poison of recorded values, as poison of their records' units in the area (log 83). -/
def Dev.poisonRecs (d : Dev) (ca : Nat) (rs : List Rec) : Dev :=
  { d with memP := (rs.zipIdx.filter fun r => r.1.poison).foldl (fun m r => setAdd m ((ca + 0x4000) / 64 + r.2)) d.memP }

/-- The fault that a core takes first: that of the earliest-issued operation (R345). -/
def Core.firstFault (k : Core) : Option (Nat × Trap) :=
  let fs := (k.q.pend ++ k.q.slb).filterMap (fun p => p.fault.map fun t => (p.seq, t))
    ++ (k.q.ld ++ k.q.st ++ k.q.at_).filterMap (fun e => e.fault.map fun t => (e.seq, t))
    ++ k.q.cp.filterMap (fun e => e.fault.map fun t => (e.seq, t))
    ++ k.q.sh.filterMap (fun e => e.fault.map fun t => (e.seq, t))
    ++ k.mx.q.filterMap (fun m => m.fault.map fun t => (m.seq, t))
    ++ (k.q.hold.toList ++ k.q.shold.toList).filterMap (fun h => h.fault.map fun t => (h.seq, t))
  (sortBy (fun (a b : Nat × Trap) => Nat.ble a.1 b.1) fs).head?

/-- A stop of the user stream of a core (R349). `unissued` is the bundle that did not issue; `xpc` the stored bundle at
which the stream continues; `idle` the idle cycles still owed. A bundle that a resume left to issue, and that has not, is one
that did not issue (R357). A held store that the commit of the region cannot write is the earlier cause, where it is the
earliest-issued fault (R345). DESIGN CHOICE: an area on a page whose data is lost is a bad area (log 103). -/
def State.stopUser (s : State) (c : CoreId) (t : Trap) (async : Bool) (xpc : W64) (unissued : Option W512) (idle : Nat)
    (xaddr : W64) : State :=
  let (xpc, unissued) := match unissued, (s.core c).f.next with
    | none, some e => ((s.core c).f.nextNpc, some e)
    | e, _ => (xpc, e)
  let s := s.sampleCut c
  let (s, bad) := if (s.core c).rg.opened then s.commitRegion c else (s, none)
  let (t, async) := match bad.bind fun _ => (s.core c).firstFault with
    | some (_, t) => (t, true)
    | none => (t, async)
  let ca := (s.core c).w.carea.toNat
  let ok := ca != 0 && ((s.ctxOf c).any fun x => s.d.areaOk x ca Config.areaBytes) && !s.d.gone ca 0x24000
  let s := s.settleMx c
  let s := if ok then s.notePa c xpc ca 0x24000 else s
  let s := s.modCore c fun k => k.flushEvents.modW fun w => { w with
    cause := causeWord t async w.uih false, cdata := t.cdata, xpc := xpc.setWidth 48, xaddr := xaddr }
  let k := s.core c
  match s.ctxOf c with
  | none => s.endStream c
  | some x =>
    if !ok then (s.endStream c).fall x.fn 3 false
    else
      let rs := k.records unissued
      let s := (s.modD fun d => (d.rawWrite x.no ca (k.areaImage idle rs)).poisonRecs ca rs).suspend c rs
      let svec := s.d.fns[x.fn].svec
      (s.modCore c fun k => (k.enterSup (svec.setWidth 64)).modW fun w => { w with svec := svec }).textWritten [(ca, 0x24000)]

/-- A cause met by the supervisor stream itself: no context area, entry at SVEC + 64, what the stream issued goes on, its holds
too; met again while it handles its own, the interface falls and the stopped stream is ended (R26, R29, R347). DESIGN CHOICE: a
region that it has open is committed and closed, on which R240 and R347 are silent (log 104). -/
def State.stopSup (s : State) (c : CoreId) (t : Trap) (async : Bool) (xpc : W64) : State :=
  let k := s.core c
  if k.supSelf then
    let s' := s.endStream c
    match s.ctxOf c with
    | some x => s'.fall x.fn 2 false
    | none => s'
  else
    let s := if k.f.held then s.modD fun d => d.sample (clusOf c) 2 none [k.f.hcyc] else s
    let s := if k.rg.opened then (s.commitRegion c).1.modCore c fun k => { k with rg := .reset } else s
    s.modCore c fun k =>
      let k := k.flushEvents
      { k with
        r := { k.r with xv := 0, xp := 0 }
        w := { k.w with cause := causeWord t async false true, cdata := t.cdata, xpc := xpc.setWidth 48 }
        f := { k.f with pc := (k.w.svec.setWidth 64) + 64, next := none, first := true, wait := 0, extra := 0, fixed := none,
                        held := false }
        supSelf := true }

/-- Taking a cause: the one entry of every trap (R347, R349). A supervisor's xpc names the bundle that met it. -/
def State.trap (s : State) (c : CoreId) (t : Trap) (async : Bool) (xpc : W64) (unissued : Option W512) (idle : Nat) : State :=
  let k := s.core c
  if k.w.pl = 0 then s.stopUser c t async xpc unissued idle 0
  else s.stopSup c t async (if unissued.isSome then (if k.f.at_ = .after then k.f.ipc else k.f.pc) else xpc)

/-! ### Resume -/

/-- Bytes that a register access moves (R82). -/
def memBytes (o : MemOp) : Nat := if o.k then vecBits o.w / 8 else if o.w = 0 then 8 else 4

/-- A record read back (R355): its words, or none where a reserved bit or a VOFF is wrong (R359). A record of KIND 0 is skipped
whatever its other words hold (R374). -/
def Rec.ofBytes (seq : Nat) (b value : List Byte) (poison : Bool) : Option Rec :=
  let w := fun (i : Nat) => BitVec.ofNat 64 (natOf ((b.drop (8 * i)).take 8))
  let n := fun (i : Nat) => (w i).toNat
  match unpack [4, 4, 6, 1, 1, 12, 4, 32] (n 0) with
  | [kind, unit, fault, hnd, done, rem, z, voff] =>
    let words := match kind with
      | 1 => decide (n 3 < 2 ^ 16) && decide (n 3 % 8 ≤ 4) && (w 4 &&& ~~~0x1F00 == 0)
      | 3 => n 3 == 0 && (w 4 &&& ~~~0x000001FFFF0FFFFF == 0)
      | 4 => decide (n 7 < 2 ^ 17)
      | 6 | 7 => n 3 == 0 && n 4 == 0
      | _ => true
    if kind = 0 then some ⟨seq, 0, 0, 0, false, false, 0, 0, 0, 0, 0, 0, 0, 0, [], false⟩
    else if z ≠ 0 ∨ 7 < kind ∨ (voff ≠ 0xFFFFFFFF ∧ (65536 ≤ voff ∨ voff % 16 ≠ 0)) ∨ n 1 / 2 ^ 48 ≠ 0
        ∨ (done = 1 ∧ kind ≠ 2 ∧ kind ≠ 6) ∨ !words then none
    else some ⟨seq, kind, unit, fault, hnd == 1, done == 1, rem, w 1, w 2, w 3, w 4, w 5, w 6, w 7,
      if voff = 0xFFFFFFFF then [] else value.drop voff, poison⟩
  | _ => none

/-- Whether a unit suits a kind (R356). -/
def Rec.unitOk (r : Rec) : Bool :=
  match r.kind with
  | 0 => true
  | 1 => decide (r.unit < 3) || r.unit == 9
  | 2 => decide (3 ≤ r.unit) && decide (r.unit ≤ 5)
  | 3 => r.unit == 8
  | 4 => r.unit == 6
  | 5 => r.unit == 7
  | 6 => r.unit == 0 || r.unit == 9
  | _ => r.unit == 10

/-- The slot of a unit (R355). -/
def unitSlot (u : Nat) : SlotId :=
  match u with
  | 0 => 0 | 1 => 1 | 2 => 2 | 3 => 4 | 4 => 5 | 5 => 5 | 6 => 6 | 7 => 6 | 8 => 3 | _ => 7

/-- The encoding rules of a body that look at the control word table and at the matrix program store (R81, R303, R240). -/
def Core.encRec (k : Core) (x : SlotOp) : Bool :=
  let desc := fun (n : Nat) => decodeDescriptor (k.m.cwt.get n)
  match x with
  | .sy .syPhase o => (desc o.imm.toNat).isSome
  | .sy .syIreg o => (desc o.imm.toNat).any fun d => d.eng == 0 && d.rd == []
  | .mx o =>
    let e := routineOf (k.mx.ent.get o.rt.toNat)
    e.valid && (o.lm == .use || e.lv) && (o.lm == .loadOnly || e.cv)
  | _ => true

/-- The operation of a record's body against a core's CWT (R359). -/
def Rec.op (k : Core) (r : Rec) : Option SlotOp :=
  (decodeSlot false (unitSlot r.unit) r.body (k.m.cwt.get (bodyCx r.body))).bind fun x =>
    if x.encOk && x.widthOk && k.encRec x then some x else none

/-- R359 for one record. -/
def Rec.ok (k : Core) (r : Rec) : Bool :=
  r.unitOk &&
  (match r.kind with
   | 0 => true
   | 7 => r.body == 0
   | 1 => r.body == 0 || (r.op k).isSome
   | 3 => r.body != 0 && (r.op k).isSome && r.w4.getLsbD 40
   | 6 => r.body != 0 && ((r.op k).any fun x => !r.done || (match x with
       | .sy .barWait _ => true
       | _ => false))
   | _ => r.body != 0 && (r.op k).isSome)

/-- R359 for a list: the first record that fails. -/
def badRec (k : Core) (rs : List (Option Rec)) : Option Nat :=
  let last := (rs.reverse.findIdx? fun r => match r with | some x => x.kind != 0 | none => true).getD 0
  (List.range rs.length).find? fun i =>
    match rs.getD i none with
    | none => true
    | some r => !r.ok k || (r.kind == 7 && i + last + 1 != rs.length)

/-- The arrival an operation carries (R66). -/
def slotGd : SlotOp → Guarding
  | .alu _ o => o.gd
  | .br _ o => o.gd
  | .mx o => o.gd
  | .mem _ o => o.gd
  | .cp _ o => o.gd
  | .sy _ o => o.gd

/-- The destination a write-back record names (R356). -/
def destOfWord (w : Nat) (hnd : Bool) : Dest :=
  let r := field w 3 7
  match field w 0 3 with
  | 0 => if hnd then .sh (Fin.ofNat 16 r) (field w 15 1 == 1) else .s (Fin.ofNat 64 r) (field w 15 1 == 1)
  | 1 => .v (Fin.ofNat 64 r)
  | 2 => .g (Fin.ofNat 16 r)
  | 3 => .mp (Fin.ofNat 8 r)
  | _ => .bank (Fin.ofNat 16 r) (Fin.ofNat 32 (field w 10 5))

/-- Whether a recorded body suppresses its write-back (R63). -/
def slotNowb : SlotOp → Bool
  | .alu _ o => o.nowb
  | _ => false

namespace Core

/-- A write-back record enters (R358): written at end of cycle r0 + max(REM, 1) − 1, shifting no latch. -/
def enterPend (k : Core) (r0 : Nat) (r : Rec) : Core :=
  let x := r.op k
  let d := destOfWord r.w3.toNat r.hnd
  let (val, mask) := match d with
    | .g _ => (natOf (r.value.take 16), natOf ((r.value.drop 16).take 16))
    | .v _ | .bank _ _ => (natOf (r.value.take 128), natOf ((r.value.drop 128).take 16))
    | _ => (r.w5.toNat, 2 ^ 128 - 1)
  let p : Pend := ⟨r0 + max r.rem 1 - 1, if r.unit = 9 then 4 else r.unit, r.seq, r.ipc, r.unit, r.body,
    (if (x.map slotNowb).getD false then .none else d), BitVec.ofNat 1024 val, BitVec.ofNat 128 mask, none, 0,
    r.w4.extractLsb' 8 5, r.poison, x.bind fun x => (slotGd x).arr, r.hnd, none⟩
  if k.w.uih && !r.hnd then k.modQ fun q => { q with slb := q.slb ++ [p] } else k.push p

/-- The landing destination of a memory operation whose names are physical (R356). -/
def landDest (t : MemTag) (o : MemOp) (hnd : Bool) : Dest :=
  if t.isLd && o.nr then .none
  else if o.k then .v o.reg.toFin
  else if hnd then .sh (o.reg.setWidth 4).toFin (t.isLd && o.w == 1) else .s o.reg.toFin (t.isLd && o.w == 1)

/-- A memory record enters its queue (R358). -/
def enterMem (k : Core) (r0 : Nat) (r : Rec) (t : MemTag) (o : MemOp) : Core :=
  let n := memBytes o
  let lands := (t.isLd && t != .ldPf) || t.isAt
  let e : QEnt := ⟨r.seq, .op t, r.ipc, r.body, o.space, r.w3, o.off.toNat % 4096, n,
    if n ≤ 8 then r.w5.setWidth 1024 else BitVec.ofNat 1024 (natOf (r.value.take 128)), r.w6,
    (if lands then some (r0 + r.rem - 1) else none), landDest t o r.hnd, lands, r.w4.toNat, r.done,
    (if r.done then .oasis else .none), k.f.rseq, 0, 0, false, r.poison, none, o.gd.arr, r.hnd⟩
  k.modQ fun q =>
    if r.unit = 3 then { q with ld := q.ld ++ [e] }
    else if r.unit = 4 then { q with st := q.st ++ [e] } else { q with at_ := q.at_ ++ [e] }

/-- A matrix call record enters (R358): MROW progress from PROG, P from the value area. -/
def enterMx (k : Core) (r0 : Nat) (f6 : Bool) (r : Rec) (o : MxOp) : Core :=
  let ent := routineOf (k.mx.ent.get o.rt.toNat)
  let w := r.w4.toNat
  let banks := BitVec.ofNat 16 (((List.range 16).map fun b =>
    if ent.bmask.getLsbD b then 2 ^ ((o.rbk.toNat + b) % 16) else 0).sum)
  let m : MxCall := ⟨r.seq, r.ipc, r.body, ent, o.sl, o.lm, o.rbk, o.acc,
    Vector.ofFn fun i : Fin 8 => BitVec.ofNat 64 (natOf ((r.value.drop (8 * i.val)).take 8)),
    field w 11 1 == 1, field w 0 11, field w 12 8, BitVec.ofNat 16 (field w 24 16), [], [], 0, none, none, 0, none, false,
    r0 + r.rem - 1, banks, o.gd.arr, r.hnd, f6⟩
  k.modMx fun x => { x with
    q := x.q ++ [m]
    bankDue := Vector.ofFn fun b : Fin 16 =>
      if o.lm != .loadOnly && banks.getLsbD b then max x.bankDue[b] (r0 + r.rem) else x.bankDue[b] }

/-- A batch number that no copy in the queue has. -/
def freshBatch (k : Core) : Nat := (k.q.cp.map Copy.batch).foldl max k.q.openBatch + 1

/-- The open batch holds a copy that is not complete (R216). -/
def openPending (k : Core) : Bool := k.q.cp.any fun x => x.batch == k.q.openBatch

/-- Closes the open batch; an empty one, or one whose copies are complete, stays as it is (R216). -/
def closeBatch (k : Core) : Core :=
  if k.openPending then k.modQ fun q => { q with openBatch := k.freshBatch } else k

/-- A copy record enters (R358); a cp.close that waits for its batch too. -/
def enterCopy (k : Core) (r : Rec) (t : CpTag) (o : CpOp) : Core :=
  let b := field r.w7.toNat 0 16
  if t = .cpClose then
    if k.q.cp.any fun x => x.batch == b then
      k.modQ fun q => { q with closes := q.closes ++ [⟨r.seq, r.ipc, r.body, b, o.gd.arr⟩] }
    else k.arriveLater r.seq o.gd.arr
  else k.modQ fun q => { q with
    cp := q.cp ++ [⟨r.seq, r.ipc, r.body, t == .cpFill, o.mode, o.dsp, r.w3, o.ssp, r.w5, r.w6, r.w4.toNat,
      decide (r.w4 ≠ 0), b, t == .cpFill && r.poison, [], [], k.w.pl, none, o.gd.arr, r.hnd⟩]
    openBatch := if field r.w7.toNat 16 1 = 1 then b else q.openBatch }

/-- Where no copy is marked as of the open batch, that batch is a new one. -/
def settleBatch (k : Core) (rs : List Rec) : Core :=
  if rs.any fun r => r.kind == 4 && field r.w7.toNat 16 1 == 1 then k
  else k.modQ fun q => { q with openBatch := k.freshBatch }

/-- A shuffle record enters (R358). -/
def enterShuf (k : Core) (r : Rec) (t : CpTag) (o : CpOp) : Core :=
  k.modQ fun q => { q with sh := q.sh ++ [⟨r.seq, r.ipc, r.body, t, o.dsp, r.w3, o.ssp, r.w5, r.w6, r.w7, r.w4.toNat,
    decide (r.w4 ≠ 0), k.w.pl, none, o.gd.arr, r.hnd⟩] }

/-- A global frame left by a fault is accessed again (R133, R358; log 19). -/
def enterFrame (k : Core) (r0 : Nat) (r : Rec) (pop : Bool) (g : Guarding) : Core :=
  let e : QEnt := ⟨r.seq, if pop then .pop else .push, r.ipc, r.body, .glob, r.w7, 0, 16, r.w6.setWidth 1024, r.w5,
    (if pop then some (r0 + max r.rem 1 - 1) else none), .none, false, 0, false, .none, k.f.rseq, 0, 0, false, false, none, g.arr, r.hnd⟩
  k.modQ fun q => if pop then { q with ld := q.ld ++ [e] } else { q with st := q.st ++ [e] }

/-- The scalars s0 to s4. -/
def firstFive (k : Core) : Vector W64 5 := Vector.ofFn fun i : Fin 5 => k.r.s[i.val]

/-- An operation that holds issue enters its slot again (R358). -/
def enterHold (k : Core) (r : Rec) (g : Guarding) (h : HoldKind) : Core :=
  let x : Hold := ⟨h, r.seq, r.ipc, r.body, 7, r.w5, g.arr, r.hnd, none⟩
  k.modQ fun q =>
    if k.w.uih && !r.hnd then { q with khold := some x }
    else if q.hold.isSome then { q with shold := some x } else { q with hold := some x }

/-- An SY operation acts again at r0 (R358): one that holds issue enters its slot; the effect of another is a result of that
cycle, with the operand that its record captured. -/
def enterSy (k : Core) (r0 : Nat) (r : Rec) (t : SyTag) (o : SyOp) : Core :=
  let p : Pend := ⟨r0, 5, r.seq, r.ipc, 9, r.body, .none, 0, BitVec.allOnes 128, none, 0, 0, false, o.gd.arr, r.hnd, none⟩
  let bar := fun (init : Bool) (v : W64) => k.push { p with dest := .bar o.bar.toFin init, val := v.setWidth 1024 }
  match t with
  | .barWait => k.enterHold r o.gd (if r.done then .barWait o.bar.toFin (r.w6.getLsbD 0) else .barNew o.bar.toFin)
  | .syFence => k.enterHold r o.gd (.fence o.imm.toNat)
  | .syWaitb => k.closeBatch.enterHold r o.gd (.waitb o.imm.toNat)
  | .syPhase => k.enterHold r o.gd (.drained ((decodeDescriptor (k.m.cwt.get o.imm.toNat)).map fun d => d.eng.toNat).toList)
  | .sySpawn => k.enterHold r o.gd (.spawn r.w5 o.imm.toNat (k.firstFive))
  | .mpsSwap => k.enterHold r o.gd .mpsSwap
  | .layout => k.enterHold r o.gd (.layout r.w5)
  | .sySuspend | .sySuspendEv | .sySuspendFe | .syYield | .syYieldPark | .syRetire => k.enterHold r o.gd (.endRun t r.w5)
  | .syQjoin => k.modQ fun q => { q with joins := q.joins ++ [⟨r.seq, o.imm.setWidth 6, r.ipc, r.body⟩] }
  | .barInitImm => bar true (o.imm.setWidth 64)
  | .barInitReg => bar true r.w5
  | .barExpectImm => bar false (o.imm.setWidth 64)
  | .barExpectReg => bar false r.w5
  | .barArrive => (k.push { p with ord := 4, arr := some o.bar }).push { p with ord := 4 }
  | .barTest | .syEvent | .syFrame | .syIreg | .syIend => k

/-- One record enters its unit (R358). -/
def enter (k : Core) (r0 : Nat) (f6 : Bool) (r : Rec) : Core :=
  match r.kind, r.op k with
  | 1, _ => k.enterPend r0 r
  | 2, some (.mem t o) => k.enterMem r0 r t o
  | 3, some (.mx o) => k.enterMx r0 f6 r o
  | 4, some (.cp t o) => k.enterCopy r t o
  | 5, some (.cp t o) => k.enterShuf r t o
  | 6, some (.sy t o) => k.enterSy r0 r t o
  | 6, some (.br .call o) => k.enterFrame r0 r false o.gd
  | 6, some (.alu .callr o) => k.enterFrame r0 r false o.gd
  | 6, some (.alu .ret o) => k.enterFrame r0 r true o.gd
  | 6, some (.alu .uiret o) => k.enterFrame r0 r true o.gd
  | 6, some (.alu .jr _) => k.modF fun f => { f with pc := r.w5 &&& 0xFFFFFFFFFFFF, nextNpc := r.w5 &&& 0xFFFFFFFFFFFF }
  | 6, some (.br .br o) =>
    k.modF fun f => { f with pc := r.ipc + (o.disp.signExtend 64) * 2, nextNpc := r.ipc + (o.disp.signExtend 64) * 2 }
  | 6, some (.alu _ _) | 6, some (.br .loopBr _) =>
    k.modQ fun q => { q with redo := q.redo ++ [⟨r.seq, r.ipc, r.body, r.w5, r.hnd⟩] }
  | 7, _ => { k with f := { k.f with next := some (BitVec.ofNat 512 (natOf (r.value.take 64))), pc := r.ipc } }
  | _, _ => k

/-- The register block and header words of a context area (R352, R353, R358), apart from MROW, ctxid and PTB (R388). -/
def loadArea (k : Core) (b : List Byte) (x : Ctx) (r0 : Nat) : Core :=
  let at_ := fun (o n : Nat) => natOf ((b.drop o).take n)
  let w := fun (o : Nat) => at_ o 8
  let ksr := w 0x20
  let sp := w 0xB8
  { k with
    r := { k.r with
      s := Vector.ofFn fun i : Fin 64 => BitVec.ofNat 64 (at_ (0x200 + 8 * i.val) 8)
      g := Vector.ofFn fun i : Fin 16 =>
        if i.val = 0 then BitVec.allOnes 128 else BitVec.ofNat 128 (at_ (0x400 + 16 * i.val) 16)
      mp := Vector.ofFn fun i : Fin 8 => BitVec.ofNat 64 (at_ (0x500 + 8 * i.val) 8)
      sh := Vector.ofFn fun i : Fin 16 => BitVec.ofNat 64 (at_ (0x540 + 8 * i.val) 8)
      v := Vector.ofFn fun i : Fin 64 => BitVec.ofNat 1024 (at_ (0x2000 + 128 * i.val) 128)
      xv := 0, xp := 0
      sp := BitVec.ofNat 64 (w 0xA8), vp := BitVec.ofNat 64 (w 0xB0)
      gp := BitVec.ofNat 16 sp, mpp := BitVec.ofNat 8 (sp / 2 ^ 16), shp := BitVec.ofNat 16 (sp / 2 ^ 24) }
    w := { k.w with
      cause := BitVec.ofNat 64 (w 0) &&& 0xFFF, cdata := BitVec.ofNat 64 (w 8), xpc := BitVec.ofNat 48 (w 0x10)
      xaddr := BitVec.ofNat 64 (w 0x18)
      pl := if ksr % 4 = 0 then 0 else 1, det := field ksr 2 1 == 1, uih := field ksr 3 1 == 1, sec := x.sec
      flags := BitVec.ofNat 5 (ksr / 256)
      rb := BitVec.ofNat 4 (w 0x28), lc := BitVec.ofNat 32 (w 0x30), ec := BitVec.ofNat 5 (w 0x38)
      sfc := BitVec.ofNat 32 (w 0x40), flo := BitVec.ofNat 19 (w 0x48), fhi := BitVec.ofNat 19 (w 0x50)
      fsp := BitVec.ofNat 19 (w 0x58), ovb := BitVec.ofNat 64 (w 0x60), ovp := BitVec.ofNat 64 (w 0x68)
      htb := BitVec.ofNat 64 (w 0x70) &&& 0x0FFFFFFFFFFFFFC1, uiv := BitVec.ofNat 48 (w 0x78) &&& ~~~1, uis := BitVec.ofNat 51 (w 0x80)
      ctxid := x.id, ptb := x.ptb }
    m := { k.m with
      spill := (k.m.spill.write 0 ((b.drop 0x1000).take 4096))
      spillP := (List.range 512).filter fun i => (at_ 0x600 64).testBit i }
    mx := { k.mx with
      q := [], comp := [], late := []
      bankDue := Vector.ofFn fun i : Fin 16 => r0 + field (at_ 0xC0 24) (12 * i.val) 12 }
    q := { Queues.reset with
      openBatch := k.q.openBatch + 1
      earr := k.q.earr
      walls := k.q.walls
      ui := (List.range (field (w 0xA0) 24 4)).map fun i => BitVec.ofNat 64 (at_ (0x180 + 8 * i) 8) }
    f := { k.f with
      peb := BitVec.ofNat 512 (at_ 0x100 64), hpeb := BitVec.ofNat 512 (at_ 0x140 64)
      pc := BitVec.ofNat 64 (at_ 0x10 6), next := none, nextNpc := BitVec.ofNat 64 (at_ 0x10 6), first := false, wait := 0
      extra := 0, fixed := some (field (w 0xA0) 16 8), leave := none, held := false, frozen := false, bankFrozen := false, frz := 0, hcyc := 0, brk := none, kcyc := r0,
      kidle := none, knext := none }
    own := some x.no
    rg := if field (w 0xA0) 32 1 = 1 then
        { Region.reset with
          opened := true, cx := BitVec.ofNat 9 (field (w 0xA0) 33 9), unbuf := true
          wr := ((decodeDescriptor (k.m.cwt.get (field (w 0xA0) 33 9))).map Descriptor.wr).getD [] }
      else .reset
    sup := decide (ksr % 4 ≠ 0)
    supSelf := false
    preempt := false
    expired := false }

end Core

/-- A core may run a context (R383): its cluster is of the context's function and world. -/
def State.ownCluster (s : State) (c : CoreId) (x : Ctx) : Bool :=
  let y := s.d.clus[clusOf c]
  y.owner == some x.fn && y.sec == x.sec

/-- The queues that records of a list enter, one in a cycle, with the first cycle in which each takes none (R358). -/
def takingOf (r0 : Nat) (rs : List Rec) : List (Nat × Nat) :=
  (List.range 6).filterMap fun q =>
    let n := (rs.filter fun r => decide (2 ≤ r.kind) && decide (r.kind ≤ 5) && r.unit == q + 3).length
    if n = 0 then none else some (q, r0 + n)

/-- What the device kept of a stopped stream is taken up again (R230, R360; log 101): the records stand from a place in issue order
on. -/
def State.unsuspend (s : State) (c : CoreId) (base : Nat) : State :=
  match (s.core c).run with
  | none => s
  | some id =>
    let ws := ((s.d.crec id).map CRec.walls).getD []
    let s := s.modCore c fun k => (k.modQ fun q => { q with
      walls := q.walls ++ ws.map fun w => { w with after := base + w.after } }).modF fun f => if k.w.uih then { f with
        kidle := (s.d.crec id).bind CRec.kidle, knext := (s.d.crec id).bind CRec.knext } else f
    s.modD fun d => { d.modRec id fun r => { r with walls := [], ran := true } with
      susp := d.susp.map fun x => if x.run = id ∧ x.now = none then { x with now := some (c.val, base) } else x }

/-- The restore of a stopped stream (R358, R359), at the end of the cycle in which resume's hold ends: r0 is the next
cycle, at whose start it leaves the core. A hold of its context, or the retirement of its cluster, still asks it to stop
(R369, R413). A list that fails R359, an address that faults, and an area that the context may not reach (R386, R403) are causes
of the supervisor stream: none then, else the records. DESIGN CHOICE: the machine level never runs on a core, and a saved PL of
10 or 11 resumes at 01 (R384, log 84). -/
def State.restore (s : State) (c : CoreId) (a : W64) (n : Nat) (ipc : W64) : State × Option (List Rec) :=
  let s := s.noteVa c ipc .read a.toNat (64 * n)
  let k := s.core c
  let ca := k.w.carea.toNat
  let bad := fun (t : Trap) => (s.stopSup c t true ipc, (none : Option (List Rec)))
  match s.readVa c .read 3 a.toNat (64 * n), s.ctxOf c with
  | .error t, _ => bad t
  | _, none => bad (trapAt .protection a.toNat)
  | .ok bs, some x =>
    if !s.d.areaOk x ca Config.areaBytes || !s.ownCluster c x then bad (trapAt .protection ca)
    else if s.d.gone ca 0x24000 then bad (trapAt .poison ca)
    else
      let s := s.notePa c ipc ca 0x24000
      let area := s.d.areaRead x ca 0x24000
      let value := area.drop 0x14000
      let base := k.f.seq + 1
      let poisoned := fun (i : Nat) => match s.xlate c (a.toNat + 64 * i) .read with
        | .ok p => s.d.memPoisoned p.pa 64
        | .error _ => false
      let rs := (List.range n).map fun i => Rec.ofBytes (base + i) ((bs.drop (64 * i)).take 64) value (poisoned i)
      match badRec k rs with
      | some i => bad (trapAt .encoding i)
      | none =>
        let r0 := k.f.cyc + 1
        let f6 := !s.d.fns[x.fn].mask.getLsbD 6
        let rs := (rs.filterMap id).filter fun r => r.kind != 0
        let s := s.modCore c fun k =>
          let k := (rs.foldl (fun k r => k.enter r0 f6 r) (k.loadArea area x r0)).settleBatch rs
          { k with
            f := { k.f with seq := k.f.seq + n + 2, cyc := r0, at_ := .start }
            q := { k.q with taking := takingOf r0 rs, ld := k.q.ld.map fun e => { e with t0 := s.d.tick } }
            preempt := x.held || s.d.clus[clusOf c].retired }
        (s.unsuspend c base, some rs)

end Sys2Proof.Machine
end

