-- ==== Sys2Proof/Machine/Issue.lean ====
section
/-! DEFINITION. The issue of a bundle: fetch and expansion (R58, R61, R348), the checks of R92 and R344 in their order, the
queues a bundle needs (R39, R201), and the one wrapper through which every slot operation takes its effect (R18, R66). -/

namespace Sys2Proof.Machine
open Sys2Proof

/-! ### Frames -/

/-- Where a frame lies (R36): an offset of the scratchpad, or an address in global memory. -/
inductive FrameAt where
  | spad (off : Nat)
  | glob (va : W64)
  deriving DecidableEq, Repr

namespace Core

/-- Where push(16) writes its frame (R36). -/
def pushAt (k : Core) : FrameAt :=
  if k.w.ovp = k.w.ovb ∧ k.w.flo.toNat + 16 ≤ k.w.fsp.toNat then .spad (k.w.fsp.toNat - 16) else .glob k.w.ovp

/-- Where pop(16) reads its frame; none where it traps PROTECTION (R36). -/
def popAt (k : Core) : Option FrameAt :=
  if k.w.ovb < k.w.ovp then some (.glob (k.w.ovp - 16))
  else if k.w.fsp.toNat + 16 ≤ k.w.fhi.toNat then some (.spad k.w.fsp.toNat) else none

/-- The return address in a scratchpad frame (R133). -/
def spadFrame (k : Core) (off : Nat) : W64 := BitVec.ofNat 64 (natOf (k.m.spad.read off 8) % 2 ^ 48)

/-- The context owns the result buffer (R365). -/
def ownsBuffer (k : Core) : Bool := k.w.aown.getLsbD 12 && k.w.aown.setWidth 12 == k.w.ctxid

/-! ### Phases -/

/-- R304: the first byte of a scratchpad access outside the phase that its engine has open, in a deterministic kernel.
Engines: 0 core, 1 bte, 2 barchan, 3 matrix. -/
def outsidePhase (k : Core) (e : Fin 4) (write : Bool) (off n : Nat) : Option Nat :=
  if k.w.det && k.w.pl == 0 && n != 0 then
    let p := k.ph[e]
    let inside := fun (rs : List (Nat × Nat)) (l : Nat) => rs.any fun r => decide (r.1 ≤ l) && decide (l ≤ r.2)
    if !p.opened then some off
    else ((linesOf off n).find? fun l => !(inside p.wr l || (!write && inside p.rd l))).map fun l => max off (128 * l)
  else none

/-- Whether the lines of a range lie in the write set of the open region (R240). -/
def inWriteSet (k : Core) (off n : Nat) : Bool :=
  (linesOf off n).all fun l => k.rg.wr.any fun r => decide (r.1 ≤ l) && decide (l ≤ r.2)

end Core

/-! ### Fetch -/

/-- The slot whose repeat fails the expansion of a stored bundle, 0 where its header does (R58, R342). -/
def expandFail (peb : W512) (bytes : List Byte) : Nat :=
  let h := natOf (bytes.take 4)
  if h / 2 ^ 31 % 2 = 1 ∨ (h / 2 ^ 16 % 256 ≠ 0 ∧ !(allSlots.any fun i => headerCode h i == 3)) then 0
  else ((allSlots.find? fun i => decide (2 ≤ headerCode h i) && !slotPresent peb i).map Fin.val).getD 0

namespace State

/-- The function whose resources a core uses. -/
def fnOf (s : State) (c : CoreId) : Option FnId := (s.ctxOf c).map Ctx.fn

/-- The function of a core's context, as far as the core has one. -/
def fn (s : State) (c : CoreId) : Option Fn := (s.fnOf c).map fun f => s.d.fns[f]

/-- n bytes of the supervisor text at a physical address (R348): in [SVEC, SVEC + STLEN) and in a granule of the function,
deciphered with STKEY. The fault names the first byte out of reach. -/
def supText (s : State) (c : CoreId) (pa n : Nat) : Except Trap (List Byte) :=
  match s.fnOf c with
  | none => .error (trapAt .protection pa)
  | some f =>
    let x := s.d.fns[f]
    let ok := fun (a : Nat) => decide (x.svec.toNat ≤ a) && decide (a < x.svec.toNat + x.stlen.toNat)
      && ((s.d.gran a).map fun g => g.owner == some f) == some true
    match (upFrom pa n).find? fun a => !ok a with
    | some a => .error (trapAt .protection a)
    | none => if s.d.gone pa n then .error (trapAt .poison pa) else .ok (s.d.readMem ⟨s.d.keyOf x.stkey, none⟩ pa n)

/-- Bytes of text at an address: through the page tree at user level (R61), by physical address above it (R348). -/
def text (s : State) (c : CoreId) (a : W64) (n : Nat) : Except Trap (List Byte) :=
  if (s.core c).w.pl = 0 then s.readVa c .fetch 3 a.toNat n else s.supText c a.toNat n

/-- The stored bundle at an address: its header first, then as many bodies as the header announces (R57, R61). -/
def fetch (s : State) (c : CoreId) (a : W64) : Except Trap (List Byte) := do
  let h ← s.text c a 4
  s.text c a (storedSize (natOf h))

/-- A control word by its index, and whether it is poisoned: from the CWT, or at supervisor level from the function's
supervisor control word table of 64 entries (R347). -/
def cword (s : State) (c : CoreId) (cx : Nat) : Option (W256 × Bool) :=
  let k := s.core c
  if k.w.pl = 0 then some (k.m.cwt.get cx, k.m.cwtP.contains cx)
  else (s.fn c).bind fun f => if cx < 64 then some (f.scwt.get cx, f.scwtP.contains cx) else none

/-- The operation in a slot of an expanded bundle; none where its encoding is no operation. -/
def slotOp (s : State) (c : CoreId) (e : W512) (i : SlotId) : Option SlotOp :=
  let sup := (s.core c).w.pl != 0
  let body := bodyOf e i
  if i.val < 3 then (s.cword c (bodyCx body)).bind fun w => decodeSlot sup i body w.1
  else decodeSlot sup i body 0

/-- The slots that are present, with their operations (R55). -/
def slotsOf (s : State) (c : CoreId) (e : W512) : List (SlotId × Option SlotOp) :=
  (allSlots.filter fun i => slotPresent e i).map fun i => (i, s.slotOp c e i)

end State

/-! ### What an operation reads and needs -/

/-- Whether an operation executes: vector operations always do (R18). -/
def Core.runs (k : Core) (x : SlotOp) : Bool :=
  match x with
  | .alu t o => t.row.vec || k.executes o.gd
  | _ => k.executes (slotGd x)

/-- The operand kinds and fields of an operation of the common layout, A, B, C. -/
def aluSrcs (t : AluTag) (o : AluOp) : List (OpKind × Src) := [(t.row.ak, o.a), (t.row.bk, o.b), (t.row.ck, o.c)]

/-- The scalar registers an operation of the other slots reads. -/
def scalarReads : SlotOp → List (BitVec 6)
  | .mem t o =>
    o.base.toList ++ (if t.isLd || o.k then [] else [o.reg] ++ (if t == .atCas then [o.reg + 1] else []))
  | .cp t o =>
    match t with
    | .cpClose => []
    | .bxGth | .bxSct => [o.db, o.sb, o.len, o.len + 1]
    | _ => [o.db, o.sb, o.len]
  | .sy t o =>
    match t with
    | .barInitReg | .barExpectReg | .sySuspendEv | .sySuspendFe | .sySpawn | .syEvent | .layout => [o.sa]
    | _ => []
  | _ => []

/-- The scalar names an operation uses at all (R137). -/
def scalarNames : SlotOp → List (BitVec 6)
  | .alu t o =>
    ((aluSrcs t o).filterMap fun p => match p with
      | (.s, .reg n) => some n
      | _ => none) ++ (if t.row.dk == .s then [o.d] else [])
  | .sy .barTest o => [o.sa]
  | x => scalarReads x

/-- Which latch a source names, if any. -/
def srcLatch : Src → Option (BitVec 4)
  | .latch n => some n
  | _ => none

/-- Whether an operation ends the run (R235). -/
def endsRun : SlotOp → Bool
  | .sy .sySuspend _ | .sy .sySuspendEv _ | .sy .sySuspendFe _ | .sy .syYield _ | .sy .syRetire _ => true
  | _ => false

/-! ### ENCODING beyond an operation's own fields -/

/-- R62 and R137: what a bundle of a user-interrupt handler may hold. A guard or a matrix parameter cannot be named. -/
def handlerOk (x : SlotOp) : Bool :=
  (scalarNames x).all (fun n => decide (n.toNat < 16)) && (slotGd x).g == 0 &&
  match x with
  | .alu t o =>
    o.unit == .s && (aluSrcs t o).all (fun p => (srcLatch p.2).isNone && p.1 != .g) && t.row.dk != .g && t.row.dk != .mp
      && t != .mfmp
  | .br t _ => t != .loopBr
  | .sy t _ => t == .barArrive || t == .barTest || t == .syFence
  | _ => false

/-- R347, R348: what a bundle of a supervisor stream may hold; elsewhere no sy.yield of a supervisor. -/
def levelOk (sup : Bool) (x : SlotOp) : Bool :=
  if sup then
    match x with
    | .alu t _ => !t.row.vec && t != .callr && t != .ret
    | .br t _ => t != .call
    | .mx _ => false
    | .sy t _ => t != .sySuspend && t != .sySuspendEv && t != .sySuspendFe && t != .syRetire && t != .syYield
    | _ => true
  else
    match x with
    | .sy t _ => t != .syYieldPark
    | _ => true

/-- R135: break or syscall beside an operation that ends the run or spawns. -/
def breakClash (ops : List SlotOp) (x : SlotOp) : Bool :=
  match x with
  | .alu .break _ | .alu .syscall _ => ops.any fun y => endsRun y || (match y with
    | .sy .sySpawn _ | .sy .syYieldPark _ => true
    | _ => false)
  | _ => false

namespace State

/-- The ENCODING rules that need the machine's state. -/
def encState (s : State) (c : CoreId) (ops : List SlotOp) (x : SlotOp) : Bool :=
  let k := s.core c
  levelOk (k.w.pl != 0) x && !breakClash ops x && (!k.inHandler || handlerOk x) &&
  match x with
  | .alu .uiret _ => k.inHandler
  | .cp _ o => !(o.mode == .ui && k.w.det && k.w.pl == 0)
  | .sy .syFrame _ => k.w.det
  | .sy .syPhase o => k.w.det && ((s.cword c o.imm.toNat).bind fun w => decodeDescriptor w.1).isSome
  | .sy .syIreg o =>
    match (s.cword c o.imm.toNat).bind fun w => decodeDescriptor w.1 with
    | some d => d.eng == 0 && d.rd == []
    | none => false
  | .mx o =>
    let e := routineOf (k.mx.ent.get o.rt.toNat)
    e.valid && (o.lm == .use || e.lv) && (o.lm == .loadOnly || e.cv)
  | _ => true

end State

/-- R40: both vector slots at 1,024 bits. -/
def tooWide (ops : List SlotOp) : Bool :=
  let wide := fun (u : AluUnit) => ops.any fun x => match x with
    | .alu _ o => o.unit == u && o.w == 2
    | _ => false
  wide .va && wide .vb

/-- Status words a user stream may read, and may write (R127, R346). -/
def swUserRead (n : Nat) : Bool := decide (n ≤ 0x00F) || n == 0x013 || (decide (0x020 ≤ n) && decide (n < 0x060))
/-- R127. -/
def swUserWrite (n : Nat) : Bool := n == 0 || n == 2 || n == 3 || n == 0x00E

/-- The lowest level at which an operation may run (R91, R126, R178, R346). -/
def needLevel : SlotOp → Nat
  | .alu .mfsw o => if swUserRead o.imm.toNat then 0 else 1
  | .alu .mtsw o => if swUserWrite o.imm.toNat then 0 else if o.imm = 0x016 then 2 else 1
  | .alu t _ => t.row.level
  | .cp .cpCopy o => if o.dsp == .ws then 1 else 0
  | .sy .mpsSwap _ => 1
  | _ => 0

/-- The features an operation uses, in rising order (R90). -/
def featuresOf (k : Core) (x : SlotOp) : List Nat :=
  match x with
  | .alu t o =>
    let fs := [o.cw.fa, o.cw.fb, o.cw.fc, o.cw.fd]
    (if fs.any Fmt.isPhasor || t.row.feature == some 0 then [0] else []) ++ (if fs.contains .e4m3 then [1] else [])
      ++ (t.row.feature.toList.filter fun f => f != 0)
  | .br _ _ => []
  | .mx o =>
    match (routineOf (k.mx.ent.get o.rt.toNat)).mode with
    | 1 => [1]
    | 3 => [2]
    | 4 => [0]
    | _ => []
  | .mem t o => (if o.space == .handle then [6] else []) ++ (if t == .atFadd || t == .redFadd then [8] else [])
  | .cp t o =>
    (if o.mode == .ui then [4] else []) ++ (if t == .cpCopy || t == .cpFill || t == .cpClose then [] else [9])
  | .sy t _ =>
    match t with
    | .syIreg | .syIend => [5]
    | .layout => [6]
    | .syFrame | .syPhase => [7]
    | _ => []

/-- The first invalid latch that an operation reads (R25). -/
def emptyLatch (k : Core) (x : SlotOp) : Option Nat :=
  match x with
  | .alu t o =>
    if k.runs x then
      (aluSrcs t o).findSome? fun p => match p.2 with
        | .latch n => if k.r.xv.getLsbD n.toNat then none else some n.toNat
        | _ => none
    else none
  | _ => none

/-- cdata of a POISON at issue on a scalar name (R343). -/
def poisonS (k : Core) (n : BitVec 6) : Option W64 :=
  if k.inHandler then
    (if k.r.shp.getLsbD (n.toNat % 16) then some (BitVec.ofNat 64 (n.toNat % 16)) else none)
  else
    let p := (physReg k.w.rb n).toNat
    if k.r.sp.getLsbD p then some (BitVec.ofNat 64 p) else none

/-- cdata of a POISON at issue on a vector name (R343). -/
def poisonV (k : Core) (n : BitVec 6) : Option W64 :=
  let p := (physReg k.w.rb n).toNat
  if k.r.vp.getLsbD p then some (BitVec.ofNat 64 (64 + p)) else none

/-- cdata of a POISON at issue on a guard: the spec gives it no value, so it is free (log 4). -/
def poisonG (k : Core) (fresh : Nat) (n : BitVec 4) : Option W64 :=
  if n ≠ 0 ∧ k.r.gp.getLsbD (physGuard k.w.rb n).toNat then some (Config.freeWord fresh 0) else none

/-- The micro-words a part of a routine reaches, up to its mu.end (R177). -/
def partWords (mic : Sparse 64) : Nat → Nat → List Nat
  | 0, _ => []
  | fuel + 1, i => if 2048 ≤ i then [] else i :: (if decodeMicro (mic.get i) = some .end_ then [] else partWords mic fuel (i + 1))

namespace State

/-- The poison an operation meets at issue (R406, R407): cdata. Its sources first, then the guard it stands under, where it
executes; then the words it names, also where it is squashed (R18). A poisoned pattern of a fill traps nothing. -/
def poisonOf (s : State) (c : CoreId) (x : SlotOp) : Option W64 :=
  let k := s.core c
  let g := poisonG k s.fresh
  let word := fun (cx : Nat) => (s.cword c cx).bind fun w => if w.2 then some (BitVec.ofNat 64 (0x1000 + cx)) else none
  let srcs : List (Option W64) :=
    if !k.runs x then []
    else (match x with
      | .alu t o =>
        ((aluSrcs t o).map fun p => match p with
          | (.s, .reg n) => poisonS k n
          | (.v, .reg n) => poisonV k n
          | (.g, .reg n) => g (n.setWidth 4)
          | (_, .latch n) => if k.r.xp.getLsbD n.toNat then some (BitVec.ofNat 64 (128 + n.toNat)) else none
          | _ => none)
        ++ [if t = .vphacc then poisonV k o.d else none,
            if t = .mfmp ∧ k.r.mpp.getLsbD o.imm.toNat then some (Config.freeWord s.fresh 0) else none]
      | .mem t o =>
        (scalarReads x).map (poisonS k) ++ [if !t.isLd && o.k then poisonV k o.reg else none]
      | .mx o =>
        (List.range 8).map fun i =>
          if k.r.mpp.getLsbD i && !((o.ovr.map fun v => v.1.toNat == i).getD false) then some (Config.freeWord s.fresh 0)
          else none
      | .cp .cpFill o => [poisonS k o.db, poisonS k o.len]
      | y => (scalarReads y).map (poisonS k)) ++ [g (slotGd x).g]
  let words : List (Option W64) := match x with
      | .alu t o => [word o.cx.toNat,
          (if t = .cwtRd ∧ k.runs x = true then
            let e := (k.scalarSrc o .none o.a).toNat % 512
            if k.m.cwtP.contains e then some (BitVec.ofNat 64 (0x1000 + e)) else none
          else none)]
      | .br _ o => [word o.cx.toNat]
      | .mx o =>
        let e := routineOf (k.mx.ent.get o.rt.toNat)
        (if k.mx.entP.contains o.rt.toNat then some (BitVec.ofNat 64 (0x2000 + o.rt.toNat)) else none) ::
        ((if o.lm ≠ .use then partWords k.mx.mic 2048 e.lpc else [])
          ++ (if o.lm ≠ .loadOnly then partWords k.mx.mic 2048 e.cpc else [])).map fun i =>
          if k.mx.micP.contains i then some (BitVec.ofNat 64 (0x3000 + i)) else none
      | .sy .syPhase o | .sy .syIreg o => [word o.imm.toNat]
      | _ => []
  (srcs ++ words).findSome? id

end State

/-! ### The remaining issue checks -/

/-- A trap with its cdata. -/
def trapW (c : Cause) (v : W64) : Option Trap := some ⟨c, 0, v⟩

/-- The first of some checks that fails. -/
def firstTrap (ts : List (Option Trap)) : Option Trap := ts.findSome? id

/-- A check that fails under a condition. -/
def failIf (b : Bool) (c : Cause) (v : W64) : Option Trap := if b then some ⟨c, 0, v⟩ else none

/-- The address of an LD or ST operation (R199), or the coordinate word of a handle access (R202). -/
def Core.memAddr (k : Core) (o : MemOp) : W64 :=
  let b := match o.base with
    | some n => k.readS n
    | none => 0
  if o.space = .handle then b else b + o.off.signExtend 64

/-- The scratchpad range of the issuing core that an access reaches (R302). -/
def ownRange (c : CoreId) (sp : Space) (a : W64) : Option Nat :=
  if sp = .loc then some a.toNat
  else if sp = .clu ∧ a.toNat < 2 ^ 23 ∧ field a.toNat 19 4 ≤ 9 ∧ (spadOf c .clu a.toNat).1 = c then
    some (spadOf c .clu a.toNat).2
  else none

/-- Checks of an LD or ST operation at issue: spill alignment and range (R35), the weight store (R85), the phase (R304),
the open region (R240). -/
def memIssue (k : Core) (c : CoreId) (fresh : Nat) (t : MemTag) (o : MemOp) : Option Trap :=
  let n := memBytes o
  let a := k.memAddr o
  let own := ownRange c o.space a
  let region := k.rg.opened
  let noArr := failIf (region && o.gd.arr.isSome) .protection (Config.freeWord fresh 0)
  if o.space = .spill then
    firstTrap [noArr, failIf (o.off.toNat % n != 0) .align a,
      failIf (!(decide (o.off.toNat + n ≤ Config.spillBytes))) .protection a]
  else
    firstTrap [
      failIf (o.space == .ws && !t.isLd) .protection a,
      failIf (region && (t.isAt || t.isRed || t == .stFill)) .protection a,
      failIf (region && t.isSt && (match own with | some off => !k.inWriteSet off n | none => false))
        .protection a,
      noArr,
      (own.bind fun off => k.outsidePhase 0 (!t.isLd) off n).bind fun b => trapW .detOverlap (BitVec.ofNat 64 b)]

namespace State

/-- Checks of the pop of a frame at issue (R36, R133, R302). -/
def popIssue (k : Core) : Option Trap :=
  match k.popAt with
  | none => trapW .protection (k.w.fsp.setWidth 64)
  | some (.spad off) =>
    let a := k.spadFrame off
    firstTrap [failIf (a.getLsbD 0) .align a,
      (k.outsidePhase 0 false off 16).bind fun b => trapW .detOverlap (BitVec.ofNat 64 b)]
  | some (.glob _) => none

/-- Checks of the push of a frame at issue (R240, R302). -/
def pushIssue (k : Core) : Option Trap :=
  match k.pushAt with
  | .spad off => firstTrap [
      failIf (k.rg.opened && !k.inWriteSet off 16) .protection (BitVec.ofNat 64 off),
      (k.outsidePhase 0 true off 16).bind fun b => trapW .detOverlap (BitVec.ofNat 64 b)]
  | .glob _ => none

/-- Checks of the S slot at issue: register targets (R131), frames (R133), supervisor operands (R139). -/
def aluIssue (k : Core) (t : AluTag) (o : AluOp) : Option Trap :=
  let a := k.scalarSrc o .none o.a
  let b := k.scalarSrc o .none o.b
  let odd := failIf (a.getLsbD 0) .align (a &&& 0xFFFFFFFFFFFF)
  let aligned := fun (v : W64) (n : Nat) => failIf (v.toNat % n != 0) .align v
  let only := fun (v m : W64) => failIf (v &&& ~~~m != 0) .protection v
  match t with
  | .jr => odd
  | .callr => firstTrap [odd, pushIssue k]
  | .ret => popIssue k
  | .uiret => if k.q.ui = [] then popIssue k else none
  | .resume => firstTrap [aligned a 64, only b 0x7FF, failIf (decide (1024 < b.toNat)) .protection b]
  | .cwtWr | .cwtRd => firstTrap [aligned b 32, only a 0x1FF]
  | .mpsWr => firstTrap [aligned b 8, only a (if a.getLsbD 12 then 0x10FF else 0x7FF)]
  | .ctxSave | .ctxLoad => aligned a 4096
  | .bankSave | .bankLoad => firstTrap [aligned a 128, only b 0xFFFFF]
  | .fmaskWr => firstTrap [only a 7, only b 0x3FF]
  | _ => none

/-- The greatest PEND that an object can have once the effects are made that SY operations have issued and not made: bar.init and
bar.expect of every core of the caravan (R226 to R228). -/
def pendSoon (s : State) (c : CoreId) (b : Fin 16) : Nat :=
  let ps := ((List.finRange 320).filter fun e => (s.core e).car == (s.core c).car).flatMap fun e => (s.core e).q.pend
  let vals := fun (init : Bool) => (ps.filter fun p => p.dest == .bar b init).map fun p => p.val.toNat
  (vals true).foldl max (s.bar c b).pend + (vals false).sum

/-- The record a core runs. -/
def recRun (s : State) (c : CoreId) : Option CRec := (s.core c).run.bind s.d.crec

/-- Checks of the SY slot at issue (R227 to R229, R236 to R241, R303, R366). A fault of the access to a handle's entry is one of
execution (R343). -/
def syIssue (s : State) (c : CoreId) (t : SyTag) (o : SyOp) : Option Trap :=
  let k := s.core c
  let a := k.readS o.sa
  let b := s.bar c o.bar.toFin
  let bn := o.bar.setWidth 64
  let region := k.rg.opened
  let closed := failIf region .protection (Config.freeWord s.fresh 0)
  let init := fun (p : Nat) => failIf (decide (Config.maxPend < p)) .barOverflow bn
  let expect := fun (n : Nat) =>
    firstTrap [failIf (decide (Config.maxPend < s.pendSoon c o.bar.toFin + n)) .barOverflow bn, failIf b.broken .barBroken bn]
  let own := match t with
    | .barInitImm => init o.imm.toNat
    | .barInitReg => init a.toNat
    | .barExpectImm => expect o.imm.toNat
    | .barExpectReg => expect a.toNat
    | .barArrive => closed
    | .barWait => failIf b.broken .barBroken bn
    | .sySuspend => firstTrap [closed, failIf b.broken .barBroken bn]
    | .sySuspendEv => firstTrap [closed, failIf (decide (1024 ≤ a.toNat)) .protection a]
    | .sySuspendFe =>
      firstTrap [failIf (a.toNat % 128 != 0) .align a, closed, failIf (!s.spaceOk c .clu a.toNat 128) .protection a]
    | .syYield | .syRetire => closed
    | .syEvent => firstTrap [closed, failIf ((a &&& 0x7FFFFFFFFFFFFC00) != 0) .protection a]
    | .sySpawn =>
      firstTrap [failIf (a.getLsbD 0) .align a, closed,
        failIf (o.imm == 1 && (((s.recRun c).map CRec.stage).getD 0 == 15)) .protection 16]
    | .syIreg => closed
    | .syIend => failIf (!k.rg.opened) .protection (Config.freeWord s.fresh 0)
    | .syPhase => closed
    | .layout =>
      firstTrap [closed,
        match s.handle c (o.imm.toNat % 4096) with
        | .error e => if e.cause = .layoutFault then some e else none
        | .ok h =>
          let tag := o.imm.toNat / 4096
          firstTrap [failIf (h.conv || !tagOk h.nd h.fmt tag) .layoutFault (BitVec.ofNat 64 (o.imm.toNat % 4096)),
            failIf (a.toNat % 65536 != 0) .align a]]
    | _ => none
  firstTrap [own, failIf (region && o.gd.arr.isSome) .protection (Config.freeWord s.fresh 0)]

/-- The issue checks of one operation that stand after POISON, SCHED_VIOLATION and the like (R344, item 4). -/
def restIssue (s : State) (c : CoreId) (x : SlotOp) : Option Trap :=
  let k := s.core c
  let region := k.rg.opened
  let noArr := failIf (region && (slotGd x).arr.isSome) .protection (Config.freeWord s.fresh 0)
  if !k.runs x then noArr
  else
    match x with
    | .alu t o => firstTrap [aluIssue k t o, noArr]
    | .br .call _ => firstTrap [pushIssue k, noArr]
    | .br _ _ => noArr
    | .mx _ => noArr
    | .mem t o => memIssue k c s.fresh t o
    | .cp t _ =>
      firstTrap [failIf (region && t != .cpClose) .protection (Config.freeWord s.fresh 0), noArr]
    | .sy t o => s.syIssue c t o

/-- MATRIX_FIRST_USE of one operation (R162, R171). -/
def firstUse (k : Core) (x : SlotOp) : Bool :=
  (match x with
   | .alu .vrow _ | .alu .vwrow _ => true
   | .mx _ => k.runs x
   | _ => false) && !k.ownsBuffer

/-- The bank that a vrow or vwrow names before its countdown is zero (R162). -/
def earlyBank (k : Core) (x : SlotOp) : Option W64 :=
  let chk := fun (b : Nat) => if k.f.cyc < k.mx.bankDue.getD b 0 then some (BitVec.ofNat 64 b) else none
  match x with
  | .alu .vrow o => match o.a with
    | .reg n => chk (n.toNat % 16)
    | _ => none
  | .alu .vwrow o => chk (o.d.toNat % 16)
  | _ => none

/-- Every operation of an engine issued before a place is complete (R303): engines 0 core, 1 bte, 2 barchan, 3 matrix. -/
def engineDone (k : Core) (e seq : Nat) : Bool :=
  match e with
  | 0 => !((k.q.ld ++ k.q.st ++ k.q.at_).any fun x => !x.done && decide (x.seq < seq))
  | 1 => !(k.q.cp.any fun x => decide (x.seq < seq))
  | 2 => !(k.q.sh.any fun x => decide (x.seq < seq))
  | _ => !(k.mx.q.any fun x => decide (x.seq < seq))

/-- Two sets of line ranges meet. -/
def rangesMeet (xs ys : List (Nat × Nat)) : Bool :=
  xs.any fun x => ys.any fun y => decide (x.1 ≤ y.2) && decide (y.1 ≤ x.2)

/-- The first engine whose open phase a descriptor's conflicts with (R303). -/
def phaseClash (k : Core) (d : Descriptor) : Option Nat :=
  (List.finRange 4).findSome? fun f =>
    let p := k.ph[f]
    if f.val ≠ d.eng.toNat ∧ p.opened ∧ (rangesMeet d.wr (p.rd ++ p.wr) || rangesMeet d.rd p.wr) then some f.val else none

/-- The engine that an operation of a bundle gives work (R302, R303). -/
def engineOf (x : SlotOp) : Option Nat :=
  match x with
  | .mem _ o => if o.space = .spill then none else some 0
  | .br .call _ | .alu .callr _ | .alu .ret _ => some 0
  | .cp t _ => match t with
    | .cpClose => none
    | .cpCopy | .cpFill => some 1
    | _ => some 2
  | .mx _ => some 3
  | _ => none

/-- DET_OVERLAP of a sy.phase that need not wait (R303). -/
def phaseIssue (s : State) (c : CoreId) (all : List SlotOp) (x : SlotOp) : Option Trap :=
  let k := s.core c
  match x with
  | .sy .syPhase o =>
    ((s.cword c (o.imm.toNat % 512)).bind fun w => decodeDescriptor w.1).bind fun d =>
      if !k.runs x || !engineDone k d.eng.toNat (k.f.seq + 8) || all.any (fun y => k.runs y && engineOf y == some d.eng.toNat)
      then none
      else (phaseClash k d).bind fun f => trapW .detOverlap (BitVec.ofNat 64 (o.imm.toNat % 512 + f * 4096))
  | _ => none

/-- The first slot at which a check fails, with its slot number. -/
def scan (ops : List (SlotId × SlotOp)) (f : SlotOp → Option Trap) : Option Trap :=
  ops.findSome? fun p => (f p.2).map fun t => { t with slot := p.1.val }

/-- Every issue check after the fetch, on a bundle whose slots decode, in the order of R92 and R344. -/
def checks (s : State) (c : CoreId) (ops : List (SlotId × SlotOp)) : Option Trap :=
  let k := s.core c
  let all := ops.map Prod.snd
  let mask := ((s.fn c).map Fn.mask).getD 0
  firstTrap [
    scan ops fun x => failIf (!(x.encOk && s.encState c all x)) .encoding 0,
    scan ops fun x => failIf (!x.widthOk || (tooWide all && x.slot == 1)) .width 0,
    scan ops fun x => failIf (decide (k.w.pl.toNat < needLevel x)) .privilege 0,
    scan ops fun x => ((featuresOf k x).find? fun f => mask.getLsbD f).bind fun f => trapW .featureMasked (BitVec.ofNat 64 f),
    scan ops fun x => (emptyLatch k x).bind fun n => trapW .latchEmpty (BitVec.ofNat 64 n),
    scan ops fun x => (s.poisonOf c x).bind fun w => trapW .poison w,
    scan ops fun x => failIf (firstUse k x) .matrixFirstUse 0,
    scan ops fun x => (earlyBank k x).bind fun w => trapW .schedViolation w,
    scan ops fun x => s.restIssue c x]

/-- The checks on an expanded bundle: ENCODING where a slot is no operation. -/
def bundleChecks (s : State) (c : CoreId) (e : W512) : Option Trap :=
  let sl := s.slotsOf c e
  let ops := sl.filterMap fun p => p.2.map fun x => (p.1, x)
  let all := ops.map Prod.snd
  firstTrap [
    sl.findSome? fun p => match p.2 with
      | none => some ⟨.encoding, p.1.val, 0⟩
      | some x => (failIf (!(x.encOk && s.encState c all x)) .encoding 0).map fun t => { t with slot := p.1.val },
    s.checks c ops,
    scan ops fun x => s.phaseIssue c all x]

/-! ### What holds a bundle -/

/-- The bundle holds an unsquashed request that is due in its own issue cycle (R298): the reason. DEDUCED: a load-only call is no such
request, since its LAND sets no countdown (R173; log 34). -/
def dueNow (k : Core) (x : SlotOp) : Option Nat :=
  if !k.runs x then none
  else
    match x with
    | .mem t o =>
      if o.space ≠ .spill ∧ ((t.isLd && t != .ldPf) || t.isAt) ∧ o.land.toNat ≤ 1 then some 1 else none
    | .mx o => if o.lm ≠ .loadOnly ∧ o.land = 0 then some 2 else none
    | _ => none

/-- Entries of the load, store, atomic, copy, shuffle and matrix fetch queues that an operation takes (R201). -/
def queueOf (k : Core) (x : SlotOp) : List Nat :=
  let push := match k.pushAt with
    | .glob _ => [1]
    | .spad _ => []
  let pop := match k.popAt with
    | some (.glob _) => [0]
    | _ => []
  if !k.runs x then []
  else
    match x with
    | .mem t o => if o.space = .spill then [] else if t.isLd then [0] else if t.isSt then [1] else [2]
    | .cp t _ => match t with
      | .cpClose => []
      | .cpCopy | .cpFill => [3]
      | _ => [4]
    | .mx _ => [5]
    | .br .call _ => push
    | .alu .callr _ => push
    | .alu .ret _ => pop
    | .alu .uiret _ => if k.q.ui = [] then pop else []
    | .alu .cwtRd _ => [1]
    | _ => []

/-- Free entries of each queue. -/
def freeEntries (k : Core) : Nat → Nat
  | 0 => Config.loadDepth - k.q.ld.length
  | 1 => Config.storeDepth - k.q.st.length
  | 2 => Config.atomicDepth - k.q.at_.length
  | 3 => Config.copyDepth - k.q.cp.length
  | 4 => Config.shuffleDepth - k.q.sh.length
  | _ => Config.matrixDepth - k.mx.q.length

/-- Closed batches with a copy outstanding (R216). -/
def outstanding (k : Core) : Nat :=
  (((k.q.cp.map Copy.batch).filter fun b => b != k.q.openBatch).dedup).length

/-- A full queue, a queue that still takes records of a resume, or a 33rd batch stands before the bundle (R39, R216, R358). -/
def queueFull (k : Core) (ops : List SlotOp) : Bool :=
  let need := (ops.map (queueOf k)).flatten
  need.any (fun q => k.q.taking.any fun t => t.1 == q && decide (k.f.cyc < t.2)) ||
  (List.range 6).any (fun q => decide (freeEntries k q < need.count q))
  || (ops.any fun x => match x with
      | .cp .cpClose _ => k.runs x && (k.q.cp.any fun e => e.batch == k.q.openBatch)
          && decide (Config.maxBatches ≤ outstanding k)
      | .sy .syWaitb _ => k.runs x && (k.q.cp.any fun e => e.batch == k.q.openBatch)
          && decide (Config.maxBatches ≤ outstanding k)
      | _ => false)

/-- R136 and R235: the bundle ends a run whose user interrupts are not all delivered. -/
def uiHeld (k : Core) (ops : List SlotOp) : Bool :=
  (ops.any fun x => endsRun x && k.runs x)
  && (k.w.uih || !k.q.ui.isEmpty || (k.q.cp.any fun e => (decodeSlot false 6 e.body 0) |>.any fun x => match x with
      | .cp _ o => o.mode == .ui
      | _ => false))

end State

/-! ### Bodies as records hold them -/

/-- A source field with its rotating name resolved (R21, R356). -/
def resolveSrc (rb : BitVec 4) (k : OpKind) (x : Src) : Src :=
  match x with
  | .reg n => match k with
    | .s | .v => .reg (physReg rb n)
    | .g => .reg ((physGuard rb (n.setWidth 4)).setWidth 6)
    | _ => .reg n
  | y => y

/-- A destination field with its rotating name resolved. -/
def resolveDest (rb : BitVec 4) (k : OpKind) (n : BitVec 6) : BitVec 6 :=
  match k with
  | .s | .v => physReg rb n
  | .g => (physGuard rb (n.setWidth 4)).setWidth 6
  | _ => n

/-- A guard field with its rotating name resolved. -/
def resolveGd (rb : BitVec 4) (g : Guarding) : Guarding := { g with g := physGuard rb g.g }

/-- An operation with every rotating name resolved to a physical register, as records and queues hold it (R356). -/
def resolve (rb : BitVec 4) : SlotOp → SlotOp
  | .alu t o => .alu t { o with
      d := resolveDest rb t.row.dk o.d
      a := resolveSrc rb t.row.ak o.a
      b := resolveSrc rb t.row.bk o.b
      c := resolveSrc rb t.row.ck o.c
      gd := resolveGd rb o.gd }
  | .br t o => .br t { o with gd := resolveGd rb o.gd }
  | .mx o => .mx { o with gd := resolveGd rb o.gd }
  | .mem t o => .mem t { o with reg := physReg rb o.reg, base := o.base.map (physReg rb), gd := resolveGd rb o.gd }
  | .cp t o => .cp t { o with db := physReg rb o.db, sb := physReg rb o.sb, len := physReg rb o.len, gd := resolveGd rb o.gd }
  | .sy t o => .sy t { o with sa := physReg rb o.sa, gd := resolveGd rb o.gd }

/-- The resolved body of an operation that issues on a core (R356). -/
def Core.body (k : Core) (x : SlotOp) : W64 := (resolve k.w.rb x).body

/-! ### The wrapper of slot operations -/

/-- A fault of a step that cannot take place. -/
def notEnabled (n : String) : Host.Outcome State Fault Refusal := .fault (.notEnabled n)

/-- The cycles after issue at whose end a squashed operation arrives (R66), less one. -/
def squashedDelay (x : SlotOp) : Nat :=
  match x with
  | .alu t o => sLatency t o - 1
  | .mem t o => if (t.isLd && t != .ldPf && o.space != .spill) || t.isAt then o.land.toNat - 1 else 0
  | .mx o => o.land.toNat - 1
  | _ => 0

/-- The unit and body under which a stop records an arrival still to be made (R355): the operation's own for the S, VA and
VB slots; for the others an SY operation with the same ARR field (log 20). -/
def arrivalAs (k : Core) (x : SlotOp) (arr : Option (BitVec 4)) : Nat × W64 :=
  if x.slot.val < 3 then (x.slot.val, k.body x)
  else (9, (SlotOp.sy .syFence ⟨0, 0, 0, 0, ⟨0, false, arr⟩⟩).body)

/-- A result of this cycle that carries an operation's arrival, in its place in issue order; one that writes something is
made from it. -/
def Core.owed (k : Core) (ord : Nat) (x : SlotOp) (arr : Option (BitVec 4)) : Pend :=
  { k.blank ord (arrivalAs k x arr).1 (arrivalAs k x arr).2 arr with seq := k.f.seq + x.slot.val }

/-- The operation's arrival at the end of this cycle, where it has one. -/
def Core.arriveNow (k : Core) (x : SlotOp) : Core :=
  match (slotGd x).arr with
  | none => k
  | some b => k.push (k.owed 4 x (some b))

/-- A squashed operation: its arrival alone (R18, R66). -/
def State.squash (s : State) (x : SlotOp) : State :=
  match (slotGd x).arr with
  | none => s
  | some b => s.modMe fun k => k.push { k.owed 4 x (some b) with due := k.f.cyc + squashedDelay x }

/-- One slot operation of the core whose turn it is: its issue checks, then its arrival alone where it is squashed, else
its effect. -/
def slotStep (x : SlotOp) (effect : State → State) (s : State) : Host.Outcome State Fault Refusal :=
  match s.checks s.cur [(x.slot, x)] with
  | some t => .next (s.trap s.cur t false s.me.f.npc (some s.me.f.ib) 0)
  | none => .next (if s.me.runs x then effect s else s.squash x)

end Sys2Proof.Machine
end

