-- ==== Sys2Proof/Machine/Order.lean ====
section
/-! DEFINITION. What must be performed before what (R201, R233, R267, R275, R276, R230), and the one way in which queues and
engines reach the spaces (R186, R199, R204, R213, R304, R405, R406, R410, R415). A write is visible to every agent at the
moment it is performed (log 21). -/

namespace Sys2Proof.Machine
open Sys2Proof

/-! ### Order -/

namespace Core

/-- The operations in the six queues that are not performed: the queue's number as sy.qjoin counts (load, store, copy, shuffle,
atomic, matrix fetch) and the place in issue order. -/
def openOps (k : Core) : List (Nat × Nat) :=
  (k.q.ld.filter fun e => !e.done).map (fun e => (0, e.seq)) ++ (k.q.st.filter fun e => !e.done).map (fun e => (1, e.seq))
  ++ (k.q.at_.filter fun e => !e.done).map (fun e => (4, e.seq)) ++ k.q.cp.map (fun e => (2, e.seq))
  ++ k.q.sh.map (fun e => (3, e.seq)) ++ k.mx.q.map (fun e => (5, e.seq))

/-- An operation of the core issued before a place in issue order is not performed. -/
def openBefore (k : Core) (seq : Nat) : Bool := k.openOps.any fun o => decide (o.2 < seq)

/-- A join still stands before an operation of a queue (R233). -/
def joined (k : Core) (q seq : Nat) : Bool :=
  k.q.joins.any fun j => decide (j.seq < seq) && j.queues.getLsbD q
    && k.openOps.any fun o => decide (o.2 < j.seq) && j.queues.getLsbD o.1

/-- The joins that still bind. -/
def dropJoins (k : Core) : Core :=
  let ops := k.openOps
  k.modQ fun q => { q with joins := q.joins.filter fun j => ops.any fun o => decide (o.2 < j.seq) && j.queues.getLsbD o.1 }

end Core

namespace State

/-- An access that a core issued before a place in its issue order is not performed: it stands in a queue, or in a record that a
stop left, which a resume may have taken to another core (R230, R360). `fuel` bounds the stops; `skip` is a record whose suspended
accesses do not count. -/
def relOpen (s : State) (skip : Option Nat) : Nat → Nat → Nat → Bool
  | 0, _, _ => false
  | fuel + 1, core, before =>
    (if h : core < 320 then (s.core ⟨core, h⟩).openBefore before else false)
    || s.d.susp.any fun x => skip != some x.run && x.core == core
      && (x.recs.any fun r => r.2 && decide (r.1 < before))
      && match x.now with
        | none => true
        | some (c, base) => s.relOpen skip fuel c (base + (x.recs.filter fun r => decide (r.1 < before)).length)

/-- A release or an acquire still waits for accesses of another core, or of its own (R230, R275): each stop that a stream has
behind it is followed once. -/
def releaseOpen (s : State) (skip : Option Nat) (core before : Nat) : Bool := s.relOpen skip (s.d.susp.length + 1) core before

/-- An acquire still waits. -/
def wallOpen (s : State) (w : Wall) : Bool := s.releaseOpen w.skip w.core w.before

/-- The accesses of stopped streams that nothing waits for any more are forgotten. -/
def pruneSusp (s : State) : State :=
  s.modD fun d => { d with susp := d.susp.filter fun x => match x.now with
    | none => d.recs.any fun r => r.id == x.run
    | some (c, base) => s.releaseOpen none c (base + x.recs.length) }

/-- An acquire stands before an operation (R275 case 11). -/
def walled (s : State) (c : CoreId) (seq : Nat) : Bool :=
  (s.core c).q.walls.any fun w => decide (w.after ≤ seq) && s.wallOpen w

/-- The core acquires what some releases order: its operations from now on wait for the accesses before them. -/
def acquire (s : State) (c : CoreId) (rs : List Release) : State :=
  let new := (rs.map fun r => (⟨(s.core c).f.seq + 8, r.core, r.before, r.skip⟩ : Wall)).filter s.wallOpen
  let old := (s.core c).q.walls.filter s.wallOpen
  s.modCore c fun k => k.modQ fun q => { q with walls := old ++ new }

/-- The kinds of the pages a virtual range touches, as far as it maps; `fuel` bounds the pages. -/
def kindsIn (s : State) (c : CoreId) : Nat → Nat → Nat → List Nat
  | 0, _, _ => []
  | _, _, 0 => []
  | fuel + 1, va, n =>
    match (s.ctxOf c).bind fun x => s.d.walk x va walkLevels x.ptb.toNat with
    | none => []
    | some l =>
      let left := 2 ^ l.bits - va % 2 ^ l.bits
      l.kind :: s.kindsIn c fuel (va + left) (n - left)

end State

/-- The four coordinates of a coordinate word (R202). -/
def coords (w : W64) : Nat × Nat × Nat × Nat := (field w.toNat 0 16, field w.toNat 16 16, field w.toNat 32 16, field w.toNat 48 16)

/-- Bits of an element of a handle access: none where the access faults LAYOUT_FAULT (R208). -/
def Handle.count (h : Handle) (size : Nat) : Option Nat :=
  if h.fmt.width = 0 ∨ size * 8 < h.fmt.width ∨ size * 8 % h.fmt.width ≠ 0 then none else some (size * 8 / h.fmt.width)

namespace State

/-- An address of a core's global access lies in the host range (R423). -/
def inHost (s : State) (c : CoreId) (va : Nat) : Bool :=
  match (s.ctxOf c).bind fun x => s.d.walk x va walkLevels x.ptb.toNat with
  | some l => decide (Config.devBytes ≤ l.base + va % 2 ^ l.bits)
  | none => false

/-- Bytes of the next single-copy unit of an access (R270): a 64-byte block, or the part in one scratchpad line; 8 bytes in the host
range (R424). -/
def unitLen (s : State) (c : CoreId) (sp : Space) (a n prog : Nat) : Nat :=
  match sp with
  | .loc | .clu => min (n - prog) (128 - (a + prog) % 128)
  | .glob => let w := if s.inHost c (a + prog) then 8 else 64; min (n - prog) (w - (a + prog) % w)
  | .ws => min (n - prog) (64 - (a + prog) % 64)
  | _ => n - prog

/-- The page kinds of the parts of a queue entry that are not performed: the next one alone, or all of them. A straddling access
counts part by part (R271). -/
def kindsOf (s : State) (c : CoreId) (e : QEnt) (next : Bool) : List Nat :=
  match e.space with
  | .glob => if next then s.kindsIn c 1 (e.addr.toNat + e.prog) 1 else s.kindsIn c 3 (e.addr.toNat + e.prog) (e.size - e.prog)
  | .handle =>
    match s.handle c e.handle with
    | .error _ => []
    | .ok h =>
      let (c0, c1, c2, c3) := coords e.addr
      let n := (h.count e.size).getD 0
      ((upFrom e.prog (if next then min 1 (n - e.prog) else n - e.prog)).filter fun i => h.inside (c0 + i) c1 c2 c3).flatMap fun i =>
        match s.elementVa c h (c0 + i) c1 c2 c3 with
        | .ok va => s.kindsIn c 1 va 1
        | .error _ => []
  | _ => []

/-- The places in storage of a byte range: a store's number, a first position and a length. A page that does not map is a place of
its own, by its virtual address (R373). -/
def storage (s : State) (c : CoreId) (sp : Space) (a n : Nat) : List (Nat × Nat × Nat) :=
  match sp with
  | .loc | .clu => let (t, off) := spadOf c sp a; [(1 + t.val, off, n)]
  | .glob =>
    match s.ctxOf c with
    | none => []
    | some x =>
      let go := fun (va n : Nat) => match s.d.walk x va walkLevels x.ptb.toNat with
        | some l => [(0, l.base + va % 2 ^ l.bits, n)]
        | none => [(450, va, n)]
      let k := min n (65536 - a % 65536)
      go a k ++ (if k < n then go (a + k) (n - k) else [])
  | _ => []

/-- The places that an entry touches. Those of handle accesses count apart from those of address mode (R267); an element that
cannot be placed counts by its coordinates. -/
def spans (s : State) (c : CoreId) (e : QEnt) : List (Nat × Nat × Nat) :=
  match e.space with
  | .handle =>
    let (c0, c1, c2, c3) := coords e.addr
    match s.handle c e.handle with
    | .error _ => [(2000 + e.handle + 4096 * (e.addr.toNat / 65536), c0, e.size)]
    | .ok h => ((List.range ((h.count e.size).getD 0)).filter fun i => h.inside (c0 + i) c1 c2 c3).flatMap fun i =>
        match s.elementVa c h (c0 + i) c1 c2 c3 with
        | .ok va => (s.storage c .glob va (h.fmt.width / 8)).map fun p => (1000 + p.1, p.2)
        | .error _ => [(2000 + e.handle + 4096 * (e.addr.toNat / 65536), c0 + i, 1)]
  | sp => s.storage c sp e.addr.toNat e.size

/-- Two entries overlap in some byte (R201, R267, R272). -/
def overlap (s : State) (c : CoreId) (a b : QEnt) : Bool :=
  (s.spans c a).any fun x => (s.spans c b).any fun y =>
    x.1 == y.1 && decide (x.2.1 < y.2.1 + y.2.2) && decide (y.2.1 < x.2.1 + x.2.2)

/-- ld.acq where it acts, and st.rel where it acts (R277): on a REL page or in the cluster space. -/
def acquires (e : QEnt) (kinds : List Nat) : Bool := e.kind == .op .ldAcq && (e.space == .clu || kinds.contains 2)
/-- R275 case 7. -/
def releases (e : QEnt) (kinds : List Nat) : Bool := e.kind == .op .stRel && (e.space == .clu || kinds.contains 2)

/-- The kinds of the pages that the rest of a copy touches. -/
def copyKinds (s : State) (c : CoreId) (x : Copy) : List Nat :=
  let part := fun (sp : Space) (a : W64) => if sp = .glob then s.kindsIn c 300 (a.toNat + x.prog) (x.n.toNat - x.prog) else []
  part x.dsp x.dst ++ (if x.fill then [] else part x.ssp x.src)

end State

/-! ### Operands -/

/-- One piece of an operand row: bytes that are fixed, bytes of a space, or none, where bytes of a handle's entry or bitmap are
read to place the others. -/
inductive Spot where
  | const (bs : List Byte)
  | at_ (sp : Space) (a n : Nat)
  | probe (va n : Nat)
  deriving DecidableEq, Repr

/-- An operand as a micro-word gives it (R181, R182, R185): its rows, their bytes and the element formats a handle may have. -/
structure Operand where
  space : Space
  ap    : BitVec 3
  sp    : BitVec 3
  win   : Bool
  tp    : BitVec 3
  rows  : Nat
  bytes : Nat
  fmts  : List Fmt
  deriving DecidableEq, Repr

/-- The B operand of a latch load (R185). -/
def latOperand (u : MuLat) : Operand :=
  let mk := fun (rows bytes : Nat) (fs : List Fmt) => (⟨u.space, u.ap, u.sp, false, 0, rows, bytes, fs⟩ : Operand)
  match u.kind with
  | 0 => mk 128 64 [.e4m3, .i8, .n8]
  | 1 => mk 64 128 [.bf16]
  | 2 => mk 32 64 [.bf16]
  | _ => mk 128 64 [.ph16]

/-- The A operand of a block operation (R185, R187). -/
def mmaOperand (u : MuMma) (k : MmaKind) : Operand :=
  let mk := fun (rows bytes : Nat) (f : Fmt) => (⟨u.space, u.ap, u.sp, u.win, u.tp, rows, bytes, [f]⟩ : Operand)
  match k with
  | .e4m3 => mk 64 128 .e4m3
  | .i8 => mk 64 128 (if u.sga then .i8 else .n8)
  | .bf16 => mk 64 128 .bf16
  | .bf16q => mk 32 64 .bf16
  | .ph => mk 32 256 .ph16

/-- The operand that a micro-word fetches row by row. -/
def Micro.fetched : Micro → Option Operand
  | .lat u => some (latOperand u)
  | .mma kind u => some (mmaOperand u kind)
  | _ => none

/-- A parameter of a call's captured set. -/
def MxCall.p (m : MxCall) (i : BitVec 3) : W64 := m.par[i.toFin]

/-- Row r's address (R186). -/
def MxCall.rowAddr (m : MxCall) (ap sp : BitVec 3) (r : Nat) : W64 := m.p ap + BitVec.ofNat 64 r * m.p sp

/-- The signed 16-bit field at a place. -/
def sfield (n pos : Nat) : Int := intOf .i16 (field n pos 16)

namespace State

/-- The pieces for one element of a handle: outside the extents, a fixed pattern. -/
def spotOf (s : State) (c : CoreId) (h : Handle) (out : Nat) (c0 c1 c2 c3 : Int) : Except Trap (List Spot) :=
  let n := h.fmt.width / 8
  if 0 ≤ c0 ∧ 0 ≤ c1 ∧ 0 ≤ c2 ∧ 0 ≤ c3 ∧ h.inside c0.toNat c1.toNat c2.toNat c3.toNat then
    (s.elementVa c h c0.toNat c1.toNat c2.toNat c3.toNat).map fun va =>
      (if h.conv then [.probe (h.bitmapVa c0.toNat c1.toNat c2.toNat c3.toNat) 1] else []) ++ [.at_ .glob va n]
  else .ok [.const (bytesOf n out)]

/-- The pieces of a row in window mode (R188). -/
def windowRow (s : State) (c : CoreId) (m : MxCall) (o : Operand) (h : Handle) (hn r : Nat) : Except Trap (List Spot) :=
  let w := h.win
  let t := (m.p o.tp).toNat
  let ph := field w 48 8
  let pw := field w 56 8
  if (h.tag ≠ 6 ∧ h.tag ≠ 7) ∨ o.rows < ph * pw ∨ t / 2 ^ 48 ≠ 0 then .error (trapAt .layoutFault hn)
  else
    let y : Int := sfield w 16 + (r / pw : Nat) * (field w 64 8 : Nat) + sfield t 0
    let x : Int := sfield w 32 + (r % pw : Nat) * (field w 72 8 : Nat) + sfield t 16
    let n := o.bytes * 8 / h.fmt.width
    ((List.range n).mapM fun k =>
      if ph * pw ≤ r then pure [.const (bytesOf (h.fmt.width / 8) 0)]
      else s.spotOf c h 0 ((field t 32 16 + k : Nat) : Int) x y ((field w 0 16 : Nat) : Int)).map List.flatten

/-- The pieces of row r of an operand (R186 to R188), or the fault that the row meets before it is read. DESIGN CHOICE: ALIGN of base or
stride comes before the bounds of the row, on whose order R186 is silent (log 49). -/
def rowSpots (s : State) (c : CoreId) (m : MxCall) (o : Operand) (r : Nat) : Except Trap (List Spot) :=
  if o.space = .handle then
    let hw := m.p o.sp
    let hn := hw.toNat % 4096
    if !m.feat6 then .error (trapAt .featureMasked 6)
    else if hw.toNat / 4096 ≠ 0 then .error (trapAt .layoutFault hn)
    else do
      let h ← s.handle c hn
      if !o.fmts.contains h.fmt then .error (trapAt .layoutFault hn)
      else
        let xs ← if o.win then s.windowRow c m o h hn r
          else
            let (c0, c1, c2, c3) := coords (m.p o.ap)
            ((List.range (o.bytes * 8 / h.fmt.width)).mapM fun e =>
              s.spotOf c h h.outside ((c0 + e : Nat) : Int) ((c1 + r : Nat) : Int) c2 c3).map List.flatten
        pure (.probe h.entry 64 :: xs)
  else if (m.p o.ap).toNat % 64 ≠ 0 then .error ⟨.align, 0, m.p o.ap⟩
  else if (m.p o.sp).toNat % 64 ≠ 0 then .error ⟨.align, 0, Config.freeWord s.fresh 0⟩
  else .ok [.at_ o.space (m.rowAddr o.ap o.sp r).toNat o.bytes]

/-- The kinds of the pages that some pieces lie on. -/
def spotKinds (s : State) (c : CoreId) (xs : List Spot) : List Nat :=
  xs.flatMap fun x => match x with
    | .at_ .glob a n => s.kindsIn c 3 a n
    | _ => []

/-- A copy of a matrix call run forward from a micro-word on, up to its end or a fault: whether a row that it still reads or drains
lies on a SEQ page (R275 cases 3 and 4). `fuel` bounds its words. -/
def runSeq (s : State) (c : CoreId) (m : MxCall) : Nat → Bool → Nat → Vector W64 8 → Nat → Bool
  | 0, _, _, _, _ => false
  | fuel + 1, comp, i, p, done =>
    let mic := (s.core c).mx.mic
    let rows := fun (o : Operand) =>
      let xs := if o.space = .glob ∨ o.space = .handle then
          (upFrom done (o.rows - done)).map fun r => s.rowSpots c { m with par := p } o r else []
      ((xs.takeWhile fun x => match x with | .ok _ => true | .error _ => false).any fun x => match x with
          | .ok ys => (s.spotKinds c ys).contains 0
          | .error _ => false,
        xs.all fun x => match x with | .ok _ => true | .error _ => false)
    match decodeMicro (mic.get i) with
    | some (.adv u) =>
      let v := match u.y with
        | some y => p[y.toFin]
        | none => u.imm.signExtend 64
      s.runSeq c m fuel comp (i + 1) (p.set u.x.toFin (p[u.x.toFin] + v)) 0
    | some (.loop u) =>
      if p[u.x.toFin] = 0 then s.runSeq c m fuel comp (i + 1) p 0
      else s.runSeq c m fuel comp u.t.toNat (p.set u.x.toFin (p[u.x.toFin] - 1)) 0
    | some .end_ => !comp && m.lm == .loadUse && s.runSeq c m fuel true m.ent.cpc p 0
    | some (.lat u) => let (seq, on) := rows (latOperand u); seq || (on && s.runSeq c m fuel comp (i + 1) p 0)
    | some (.mma k u) => let (seq, on) := rows (mmaOperand u k); seq || (on && s.runSeq c m fuel comp (i + 1) p 0)
    | some (.drain u) =>
      let n := if u.q then 32 else 64
      (u.space == .glob && (upFrom done (n - done)).any fun r =>
        (s.kindsIn c 3 (({ m with par := p }).rowAddr u.ap u.sp r).toNat (n * u.fd.width / 8)).contains 0)
      || s.runSeq c m fuel comp (i + 1) p 0
    | none => false

/-- A matrix call still reads or stores a row on a SEQ page (R275 cases 3 and 4, R276). A run of its words that has passed through as
many words as there are states of it, 2,048 indices and the values of eight parameters, repeats itself. -/
def callSeq (s : State) (c : CoreId) (m : MxCall) : Bool :=
  m.fault.isNone && !m.fin && s.runSeq c m (2 ^ 524) m.comp m.upc m.par (m.row + m.rows.length)

/-- An access to a SEQ page is not yet performed, so issue holds (R276): of a queue entry, of a handle's element, of a matrix
call's row. A copy as a whole holds no issue. DEDUCED: a kernel's entry holds its handler too, but while a matrix call stands in
the queue, which the handler keeps from going on (log 44). -/
def seqHeld (s : State) (c : CoreId) : Bool :=
  let k := s.core c
  ((k.q.ld ++ k.q.st ++ k.q.at_).any fun e =>
    !e.done && e.fault.isNone && (e.hnd == k.inHandler || k.mx.q.isEmpty) && (s.kindsOf c e false).contains 0)
  || (!k.inHandler && k.mx.q.any fun m => s.callSeq c m)

/-- Whether an operation of a queue may go ahead, for what it and the operations before it are (R201, R233, R275, R276). `kinds`:
of the part that goes. -/
def ordered (s : State) (c : CoreId) (q seq : Nat) (kinds : List Nat) (acq rel : Bool) : Bool :=
  let k := s.core c
  let ents := ((k.q.ld ++ k.q.st ++ k.q.at_).filter fun e => !e.done && decide (e.seq < seq)).map fun e => (e, s.kindsOf c e false)
  !k.joined q seq && !s.walled c seq
  && !((kinds.contains 0 || rel) && k.openBefore seq)
  && !(ents.any fun p => p.2.contains 0 || acquires p.1 p.2)
  && !(k.q.cp.any fun x => decide (x.seq < seq) && (s.copyKinds c x).contains 0)
  && !(k.mx.q.any fun m => decide (m.seq < seq) && s.callSeq c m)
  && !(kinds.contains 1 && (q == 0 || q == 1 || q == 4) && ents.any fun p => p.2.contains 1)
  && !(acq && ents.any fun p => releases p.1 p.2)

/-- The bitmap byte that places the next element of a handle access lies on a page that a move has locked (R410). -/
def elementLate (s : State) (c : CoreId) (e : QEnt) : Bool :=
  match s.handle c e.handle with
  | .ok h =>
    let (c0, c1, c2, c3) := coords e.addr
    h.conv && h.inside (c0 + e.prog) c1 c2 c3 && s.lateVa c .read 1 (h.bitmapVa (c0 + e.prog) c1 c2 c3) 1
  | .error _ => false

/-- Whether the head entry of the load, store or atomic queue may perform its next part. -/
def mayGo (s : State) (c : CoreId) (q : Nat) (e : QEnt) : Bool :=
  let k := s.core c
  let kinds := s.kindsOf c e true
  !(e.space == .handle && (s.handleLate c e.handle || s.elementLate c e))
  && s.ordered c q e.seq kinds (acquires e kinds) (releases e kinds)
  && !((k.q.ld ++ k.q.st ++ k.q.at_).any fun x => !x.done && decide (x.seq < e.seq) && s.overlap c x e)

end State

/-! ### Access -/

/-- What an access to write comes to. -/
inductive Put where
  | late
  | bad (t : Trap)
  | ok (s : State)

/-- Bank of a weight-store offset, and whether it is in refresh (R249, R250). -/
def Dev.wsWait (d : Dev) (off : Nat) : Nat :=
  let r := d.refresh.toNat % 65536
  let b := off / 16384 % 64
  if 1024 * b ≤ r ∧ r < 1024 * b + 40 then 1024 * b + 40 - r else 0

namespace State

/-- Limits of the scratchpad and weight store spaces, then the open phase of an engine (R199, R302, R304). `e` none: a core
access, checked at issue. -/
def spaceCheck (s : State) (c : CoreId) (e : Option (Fin 4)) (write : Bool) (sp : Space) (a n : Nat) : Option Trap :=
  if !s.spaceOk c sp a n then some (trapAt .protection a)
  else
    match e, ownRange c sp (BitVec.ofNat 64 a) with
    | some e, some off => ((s.core c).outsidePhase e write off n).map fun b => trapAt .detOverlap b
    | _, _ => none

/-- The binding of a core whose caravan shares its cores has ended (R332): its lines belong to the engines of that run alone. -/
def shareOver (s : State) (t : CoreId) : Bool :=
  (s.core t).unbind && ((s.core t).car.bind s.d.car).any fun x => field x.rec_.toNat 706 1 == 1

/-- n bytes at an address of a space, for a core's queue or for an engine (R186, R204, R213). What another core reads in lines whose
binding has ended with SHARE = 1 is open (R332; log 59). -/
def get (s : State) (c : CoreId) (e : Option (Fin 4)) (sp : Space) (a n : Nat) : Get :=
  match sp with
  | .glob =>
    match s.reach c .read a n with
    | (.ok _ _, ps) => .ok (ps.flatMap fun p => s.d.readMem p.1.key p.1.pa p.2)
        (ps.any fun p => s.d.memPoisoned p.1.pa p.2)
    | (r, _) => r
  | .handle | .spill => .bad (trapAt .protection a)
  | .ws =>
    match s.spaceCheck c e false sp a n with
    | some t => .bad t
    | none =>
      let die := dieOf c
      .ok (s.d.ws[die].read a n) (s.d.wsP[die].any fun u => decide (64 * u < a + n) && decide (a < 64 * u + 64))
  | .loc | .clu =>
    match s.spaceCheck c e false sp a n with
    | some t => .bad t
    | none =>
      let (t, off) := spadOf c sp a
      let k := s.core t
      if !k.full off n then .late
      else if t != c && s.shareOver t then
        .ok ((List.range n).map fun i => Config.freeByte s.fresh (2 ^ 85 + off + i)) (k.spadPoisoned off n)
      else .ok (k.m.spad.read off n) (k.spadPoisoned off n)

/-- What a read leaves behind. Of global memory: it is charged to its class, and where it waits on a page pending scrub, the event
and the page scrubbed (R307, R338, R415). Of a scratchpad: its lines are addressed by the core's caravan (R248). -/
def noteRead (s : State) (c : CoreId) (ipc : W64) (sp : Space) (a n : Nat) : State :=
  if sp = .glob then
    match s.reach c .read a n with
    | (.ok _ _, ps) => ((s.noteScrub c ipc ps).charge c (ps.map fun p => (p.1.pa, p.2))).modD
        fun d => ps.foldl (fun d p => d.settlePages p.1.pa p.2) d
    | _ => s
  else if sp = .clu ∨ sp = .loc then s.claim c (spadOf c sp a).1
  else s

/-- What a read of a handle's entry leaves behind, also where its bytes name no handle (R307, R308, R415). -/
def noteHandle (s : State) (c : CoreId) (ipc : W64) (h : Nat) : State :=
  let w := (s.core c).w.htb.toNat
  if w % 2 = 0 ∨ field w 48 12 < h then s else s.noteVa c ipc .read (field w 6 42 * 64 + 64 * h) 64

/-- Writes bytes at an address of a space; poisoned data poisons the units it touches (R405, R406). -/
def put (s : State) (c : CoreId) (e : Option (Fin 4)) (ipc : W64) (sp : Space) (a : Nat) (bs : List Byte) (poison : Bool) : Put :=
  let n := bs.length
  match sp with
  | .glob =>
    match s.reach c .write a n with
    | (.ok _ _, ps) =>
      let at_ := ps.map fun p => (p.1.pa, p.2)
      let s := (((s.noteScrub c ipc ps).charge c at_).modD fun d => d.writePlaces ps bs).textWritten at_
      .ok (if poison then s.modD fun d => at_.foldl (fun d p => d.setPoison p.1 p.2) d else s)
    | (.bad t, _) => .bad t
    | (.late, _) => .late
  | .handle | .spill => .bad (trapAt .protection a)
  | .ws =>
    match s.spaceCheck c e true sp a n with
    | some t => .bad t
    | none =>
      let die := dieOf c
      .ok (s.modD fun d => { d with
        ws := d.ws.set die (d.ws[die].write a bs)
        wsP := d.wsP.set die (
          let p := d.wsP[die].filter fun u => !(decide (a ≤ 64 * u) && decide (64 * u + 64 ≤ a + n))
          if poison then (upFrom (a / 64) ((a + n - 1) / 64 + 1 - a / 64)).foldl setAdd p else p) })
  | .loc | .clu =>
    match s.spaceCheck c e true sp a n with
    | some t => .bad t
    | none =>
      let (t, off) := spadOf c sp a
      let s := s.writeSpad c t off bs
      .ok (if poison then s.modCore t fun k => k.modM fun m => { m with spadP := (linesOf off n).foldl setAdd m.spadP } else s)

end State

end Sys2Proof.Machine
end

