-- ==== Sys2Proof/Machine/Clock.lean ====
section
/-! DEFINITION. The clock of a core and the steps it makes of itself: the issue of a bundle (R60, R92, R344), results at
the end of their cycle (R19, R20), returns, landings and freezes (R27, R28), bank countdowns (R32), SCHED_OVERRUN (R298),
the end of a cycle (R39, R295), and the monitors' samples (R419, R420). -/

namespace Sys2Proof.Machine
open Sys2Proof

/-! ### The core in its cycle -/

namespace Core

/-- A stream runs on the core. -/
def active (k : Core) : Bool := k.run.isSome || k.sup

/-- An entry whose landing counts at present: a kernel's stands still while a handler runs (R350). -/
def live (k : Core) (hnd : Bool) : Bool := !k.w.uih || hnd

/-- The requests due in this cycle (R289), in issue order. -/
def dueLandings (k : Core) : List QEnt :=
  sortBy (fun (a b : QEnt) => Nat.ble a.seq b.seq)
    ((k.q.ld ++ k.q.at_).filter fun e => e.land == some k.f.cyc && k.live e.hnd)

/-- A landing of this cycle has not arrived (R28). -/
def lateLanding (k : Core) : Bool := k.dueLandings.any fun e => e.ret == .none

/-- The next result due in this cycle, in the order of R20 and R226; a write of SFC is made by the end of the cycle. The
snapshot latch bank counts once its handler has ended (R350). -/
def nextWrite (k : Core) : Option Pend :=
  (sortBy (fun (a b : Pend) => decide (a.ord < b.ord) || (a.ord == b.ord && Nat.ble a.seq b.seq))
    ((k.q.pend ++ if k.w.uih then [] else k.q.slb).filter fun p => decide (p.due ≤ k.f.cyc) && p.dest != .sw 4 && p.fault.isNone)).head?

/-- A block operation of a micro-word writes a bank. -/
def wordWrites (rbk : BitVec 4) (b : Fin 16) : Micro → Bool
  | .mma k u => (List.range (if k = .bf16q then 1 else 4)).any fun o => decide ((rbk.toNat + u.bo.toNat + o) % 16 = b.val)
  | _ => false

/-- The index at which a part ends, from a micro-word on. -/
def partEnd (mic : Sparse 64) : Nat → Nat → Nat
  | 0, i => i
  | fuel + 1, i => match decodeMicro (mic.get i) with
    | some .end_ | none => i
    | some _ => partEnd mic fuel (i + 1)

/-- The lowest micro-word that loops from a range of words reach, taken back as far as it goes. -/
def partStart (mic : Sparse 64) (hi : Nat) : Nat → Nat → Nat
  | 0, lo => lo
  | fuel + 1, lo =>
    let t := (upFrom lo (hi - lo)).foldl (fun m j => match decodeMicro (mic.get j) with
      | some (.loop u) => min m u.t.toNat
      | _ => m) lo
    if t < lo then partStart mic hi fuel t else lo

/-- A product of square tables of nine. -/
def tabMul (a b : List (List W64)) : List (List W64) :=
  a.map fun r => (List.range 9).map fun j => ((List.range 9).map fun k => r.getD k 0 * (b.getD k []).getD j 0).sum

/-- A power of a table by squaring, over the bits of its exponent from the lowest up. -/
def tabPow : Nat → List (List W64) → Nat → List (List W64) → List (List W64)
  | 0, _, _, acc => acc
  | fuel + 1, a, n, acc => if n = 0 then acc else tabPow fuel (tabMul a a) (n / 2) (if n % 2 = 1 then tabMul acc a else acc)

/-- The unit table. -/
def tabOne : List (List W64) := (List.range 9).map fun i => (List.range 9).map fun j => if i = j then 1 else 0

/-- What one pass of a loop's body makes of the parameters and 1, as a table; none where the body holds another loop or a block
operation that writes the bank. -/
def bodyTable (mic : Sparse 64) (rbk : BitVec 4) (b : Fin 16) : Nat → Nat → Nat → List (List W64) → Option (List (List W64))
  | 0, _, _, _ => none
  | fuel + 1, i, l, t =>
    if i = l then some t
    else
      match decodeMicro (mic.get i) with
      | some (.adv u) =>
        let add : List W64 := match u.y with
          | some y => t.getD y.toNat []
          | none => (List.range 9).map fun j => if j = 8 then u.imm.signExtend 64 else 0
        bodyTable mic rbk b fuel (i + 1) l (t.set u.x.toNat (((t.getD u.x.toNat []).zip add).map fun p => p.1 + p.2))
      | some (.loop _) | some .end_ | none => none
      | some w => if wordWrites rbk b w then none else bodyTable mic rbk b fuel (i + 1) l t

/-- The parameters after a loop whose body is a table, run until its count is 0. -/
def loopOut (t : List (List W64)) (x : Fin 8) (p : Vector W64 8) : Vector W64 8 :=
  let t := t.set x.val ((t.getD x.val []).set 8 (-1))
  let m := tabPow 64 t p[x].toNat tabOne
  Vector.ofFn fun i : Fin 8 => (((List.range 9).zip (m.getD i.val [])).map fun q =>
    q.2 * (if h : q.1 < 8 then p[q.1] else 1)).sum

/-- A copy of a parameter set run forward through the control words from a micro-word on: whether a block operation that
writes the bank is still to come. A loop whose body leaves its count alone is taken in one. A run that has passed through as many
words as there are states of it, 2,048 indices and the values of eight parameters, repeats itself (log 42). -/
def runWrites (mic : Sparse 64) (rbk : BitVec 4) (b : Fin 16) : Nat → Nat → Vector W64 8 → Bool
  | 0, _, _ => false
  | fuel + 1, i, p =>
    match decodeMicro (mic.get i) with
    | some (.adv u) =>
      let v := match u.y with
        | some y => p[y.toFin]
        | none => u.imm.signExtend 64
      runWrites mic rbk b fuel (i + 1) (p.set u.x.toFin (p[u.x.toFin] + v))
    | some (.loop u) =>
      if p[u.x.toFin] = 0 then runWrites mic rbk b fuel (i + 1) p
      else
        match (bodyTable mic rbk b 2048 u.t.toNat i tabOne).filter fun t => t.getD u.x.toNat [] == tabOne.getD u.x.toNat [] with
        | some t => runWrites mic rbk b fuel (i + 1) (loopOut t u.x.toFin p)
        | none => runWrites mic rbk b fuel u.t.toNat (p.set u.x.toFin (p[u.x.toFin] - 1))
    | some .end_ | none => false
    | some w => wordWrites rbk b w || runWrites mic rbk b fuel (i + 1) p

/-- A block operation that writes a bank is still to come: none of the words that can still be reached is one, or the run of the
control words decides. -/
def willWrite (mic : Sparse 64) (rbk : BitVec 4) (b : Fin 16) (i : Nat) (p : Vector W64 8) : Bool :=
  let hi := partEnd mic 2048 i
  let lo := partStart mic hi 2048 i
  ((upFrom lo (hi - lo)).any fun j => ((decodeMicro (mic.get j)).map (wordWrites rbk b)).getD false)
  && runWrites mic rbk b (2 ^ 524) i p

/-- The contents of a bank are not complete: a completion is in flight, or a call has still to write it (R32, R193). -/
def bankOpen (k : Core) (b : Fin 16) : Bool :=
  (k.mx.comp.any fun x => x.banks.getLsbD b)
  || k.mx.q.any fun m => m.lm != .loadOnly && m.banks.getLsbD b && !m.fin
      && (!m.comp || willWrite k.mx.mic m.rbk b m.upc m.par)

/-- The banks whose countdown is zero and whose contents are not complete (R32). -/
def lateBanks (k : Core) : List (Fin 16) :=
  if k.w.uih then [] else (List.finRange 16).filter fun b => decide (k.mx.bankDue[b] ≤ k.f.cyc) && k.bankOpen b

/-- The region's restart that a slice end or a hold asks for stands until the handler in progress has ended (R235, R367). -/
def restartWaits (k : Core) : Bool := k.w.uih && k.rg.opened && !k.rg.unbuf

/-- A stop stands before the next bundle: a fault, or in a user stream a seif report, a PREEMPT or a slice end (R345). -/
def stopPending (k : Core) : Bool :=
  k.firstFault.isSome || (k.w.pl == 0 && (k.seif.isSome || ((k.preempt || k.expired) && !k.restartWaits)))

/-- A user interrupt is to be delivered at this boundary (R136), also at one before the bundle of a KIND 7 record (R358). -/
def uiPending (k : Core) : Bool := k.w.pl == 0 && !k.w.uih && !k.q.ui.isEmpty

/-- The call at the head of the queue with the micro-word it stands at, while it is not at its end and has met no fault. -/
def headWord (k : Core) : Option (MxCall × Micro) :=
  match k.mx.q with
  | m :: _ => if m.fault.isSome || m.rowFault.isSome || m.fin then none else (decodeMicro (k.mx.mic.get m.upc)).map fun u => (m, u)
  | [] => none

/-- The core stands at a bundle boundary that nothing else occupies. -/
def atBoundary (k : Core) : Bool :=
  k.active && k.f.at_ == .start && !k.f.frozen && !k.lateLanding && k.lateBanks.isEmpty

/-- PEB, or the handler's own (R29). -/
def pebNow (k : Core) : W512 := if k.inHandler then k.f.hpeb else k.f.peb

end Core

namespace State

/-! ### The next bundle -/

/-- The next bundle, expanded, with the address after it; `none` inside where it traps ENCODING in expansion (R58). -/
def nextBundle (s : State) (c : CoreId) : Except Trap (Option (W512 × W64)) :=
  let k := s.core c
  match k.f.next with
  | some e => .ok (some (e, k.f.nextNpc))
  | none => do
    let bs ← s.fetch c k.f.pc
    pure ((expand k.pebNow bs).map fun e => (e, k.f.pc + BitVec.ofNat 64 bs.length))

/-- The fetch of the next bundle waits for the end of a move (R410). -/
def fetchLate (s : State) (c : CoreId) : Bool :=
  let k := s.core c
  let late := fun (n : Nat) =>
    if k.w.pl = 0 then s.lateVa c .fetch 3 k.f.pc.toNat n else s.d.locked k.f.pc.toNat n
  k.f.next.isNone && (late 4 || (match s.text c k.f.pc 4 with
    | .ok h => late (storedSize (natOf h))
    | .error _ => false))

/-- The bytes of the next bundle that are read: as many as its header announces, or the header alone where the rest is out of reach. -/
def fetchLen (s : State) (c : CoreId) : Nat :=
  let k := s.core c
  match s.text c k.f.pc 4, s.fetch c k.f.pc with
  | .error _, _ => 0
  | .ok _, .error _ => 4
  | .ok _, .ok bs => bs.length

/-- The text of the next bundle is read, whether it then issues or traps: a page pending scrub is scrubbed first (R307, R415). -/
def noteFetch (s : State) (c : CoreId) : State :=
  let k := s.core c
  if k.f.next.isSome then s
  else if k.w.pl = 0 then s.noteVa c k.f.pc .fetch k.f.pc.toNat (s.fetchLen c)
  else s.notePa c k.f.pc k.f.pc.toNat (s.fetchLen c)

/-- Idle cycles the next bundle needs in all (R60, R132, R358). -/
def idleNeed (s : State) (c : CoreId) : Nat :=
  let k := s.core c
  match k.f.fixed with
  | some n => n
  | none => k.f.extra + (match k.f.next, s.text c k.f.pc 4 with
    | some e, _ => stampOf e
    | none, .ok h => natOf h / 2 ^ 24 % 128
    | none, .error _ => 0)

/-- Idle cycles still owed (R353). -/
def idleOwed (s : State) (c : CoreId) : Nat := s.idleNeed c - (s.core c).f.wait

/-- The next bundle opens a frame (R297). -/
def nextOpens (s : State) (c : CoreId) : Bool :=
  match s.nextBundle c with
  | .ok (some (e, _)) => (s.slotsOf c e).any fun p => match p.2 with
    | some (.sy .syFrame _) => true
    | _ => false
  | _ => false

/-- The core runs a kernel in deterministic mode (R294). -/
def detNow (s : State) (c : CoreId) : Bool := (s.core c).w.det && (s.core c).w.pl == 0

/-- SCHED_OVERRUN (R298, R299). Its event names xpc: past the bundle of a KIND 7 record that has not issued. -/
def overrun (s : State) (c : CoreId) (reason : Nat) (slot : Nat) (xpc : W64) (unissued : Option W512) : State :=
  let sfc := (s.core c).w.sfc.toNat
  let s := s.modCore c fun k => k.event 0x03 (if unissued.isNone && k.f.next.isSome then k.f.nextNpc else xpc)
  s.trap c ⟨.schedOverrun, slot, BitVec.ofNat 64 (sfc + reason * 2 ^ 32)⟩ false xpc unissued
    (if unissued.isSome then 0 else s.idleOwed c)

/-! ### Issue -/

/-- The order in which the steps of one bundle are taken: sy.frame before the rest, since SFC reads 0 in its issue cycle
(R296); break and syscall after it, since their bundle issues in full (R135). -/
def stepOrder (ops : List SlotOp) : List SlotOp :=
  let first := fun (x : SlotOp) => match x with
    | .sy .syFrame _ => true
    | _ => false
  let last := fun (x : SlotOp) => match x with
    | .alu .break _ | .alu .syscall _ => true
    | _ => false
  ops.filter first ++ ops.filter (fun x => !first x && !last x) ++ ops.filter last

/-- A bundle issues: the front end moves on and its operations are handed over (R29, R60). -/
def issueNow (s : State) (c : CoreId) (e : W512) (npc : W64) (ops : List SlotOp) : State :=
  let s := (s.noteFetch c).modCore c fun k => k.modF fun f => { f with
    peb := if k.inHandler then f.peb else e
    hpeb := if k.inHandler then e else f.hpeb
    ib := e, ipc := f.pc, npc := npc, pc := npc, next := none, first := false
    wait := 0, extra := 0, fixed := none, held := false, hcyc := 0, at_ := .after, seq := f.seq + 8 }
  { s with cur := c, issue := (stepOrder ops).map SlotOp.toInstr }

/-- The entries of handles that a bundle's layout operations look at as it issues are read, also where it traps (R307, R415). -/
def noteOps (s : State) (c : CoreId) (ops : List SlotOp) : State :=
  ops.foldl (fun (s : State) x => match x with
    | .sy .layout o => if (s.core c).runs x then s.noteHandle c (s.core c).f.pc (o.imm.toNat % 4096) else s
    | _ => s) s

/-- The bundle whose idle cycles have passed: it traps, is held, or issues. `none` where it stays held. -/
def tryIssue (s : State) (c : CoreId) (again : Bool) : Option State :=
  let k := s.core c
  let n := s.noteFetch c
  if s.fetchLate c then none
  else
  match s.nextBundle c with
  | .error t => some (n.trap c t false k.f.pc none 0)
  | .ok none =>
    let slot := match s.fetch c k.f.pc with
      | .ok bs => expandFail k.pebNow bs
      | .error _ => 0
    some (n.trap c ⟨.encoding, slot, 0⟩ false k.f.pc none 0)
  | .ok (some (e, npc)) =>
    let sl := s.slotsOf c e
    let ops := sl.filterMap Prod.snd
    let opens := ops.any fun x => match x with
      | .sy .syFrame _ => true
      | _ => false
    let det := s.detNow c
    let hold := fun (reason : Nat) =>
      if det && !opens then some (n.overrun c reason 0 k.f.pc none)
      else if again then none
      else some (s.modCore c fun k => k.modF fun f => { f with held := true, at_ := .after, hcyc := 0 })
    match (if det then ops.findSome? fun x => (dueNow k x).map fun r => (r, x.slot.val) else none) with
    | some (r, i) => some (n.overrun c r i npc (some e))
    | none =>
      if s.seqHeld c then hold 5
      else
        match s.bundleChecks c e with
        | some t => some ((n.noteOps c ops).trap c t false npc (some e) 0)
        | none => if queueFull k ops || uiHeld k ops then hold 3 else some (s.issueNow c e npc ops)

/-! ### Freezes -/

/-- The end of a freeze once nothing of its cycle is missing, with its samples (R28, R32, R420). -/
def thaw (s : State) (c : CoreId) : State :=
  let k := s.core c
  if k.f.frozen && !k.lateLanding && k.lateBanks.isEmpty then
    (s.modCore c fun k => k.modF fun f => { f with frozen := false, bankFrozen := false, frz := 0 }).modD
      fun d => d.sample (clusOf c) 2 none [k.f.frz]
  else s

/-- The clock domain freezes; in a deterministic kernel, at the start of a cycle, SCHED_OVERRUN (R28, R32, R298). -/
def freeze (s : State) (c : CoreId) (bank : Bool) : State :=
  let k := s.core c
  if s.detNow c && k.f.at_ == .start then s.overrun c (if bank then 2 else 1) 0 k.f.pc none
  else s.modCore c fun k => k.modF fun f => { f with frozen := true, bankFrozen := f.bankFrozen || bank || !k.lateBanks.isEmpty }

/-! ### Results and landings -/

/-- A change of OWNER or OV zeroes every bank and latch that the old word marks dirty (R365); the hold it makes is over by
the end of the cycle. -/
def wipe (old : W64) (k : Core) : Core :=
  if old.setWidth 13 = k.w.aown.setWidth 13 then k
  else
    let bs := (List.range 16).filter fun b => old.getLsbD (16 + b)
    let ls := (List.range 4).filter fun l => old.getLsbD (32 + l)
    k.modM fun m => { m with
      bank := bs.foldl (fun m b => m.write (32 * b) (List.replicate 32 0)) m.bank
      bankP := m.bankP.filter fun r => !bs.contains (r / 32)
      sl := ls.foldl (fun m l => m.write (16384 * l) (zeros 16384)) m.sl
      slP := ls.foldl (fun p l => p &&& ~~~BitVec.ofNat 8 (3 * 4 ^ l)) m.slP }

/-- A result is written at the end of its cycle, with its effect beyond the core (R19, R226 to R228, R346). Where a bar.init of
another core, issued meanwhile, has left too little room, a bar.expect leaves the object unchanged (R228; log 94). A feature mask
changes at the function's configuration point, after whatever else arrives there in the cycle (R393). -/
def writeBack (s : State) (c : CoreId) (p : Pend) : State :=
  let own := (s.core c).w.aown
  let s := s.modCore c fun k => ((k.modQ fun q => { q with pend := q.pend.erase p, slb := q.slb.erase p }).retire p).arrive p.seq p.arr
  match p.dest with
  | .bar b true => s.modBar c b fun o =>
      { o with pend := p.val.toNat, part := p.val.toNat, phase := !o.phase, broken := false }
  | .fmask f => (s.modD fun d => { d.modFn f fun x => { x with mask := p.val.setWidth 10 } with
      ranks := tabSet d.ranks (64 + f.val) 3 }).fall f 1 false
  | .bar b false => s.modBar c b fun o =>
      if Config.maxPend < o.pend + p.val.toNat then o else { o with pend := o.pend + p.val.toNat }
  | .sw 0x00C => s.modCore c (wipe own)
  | .sw 0x014 =>
    let k := s.core c
    s.modD fun d => { d with ctxs := d.ctxs.map fun x => if x.id = k.w.ctxid then { x with carea := k.w.carea } else x }
  | _ => s

/-- One landing: the write, the shift of the load latches, the entry freed, the arrival (R24, R27, R66, R203). -/
def land (k : Core) (e : QEnt) : Core :=
  let mask := match e.dest with
    | .v _ => lanes e.size
    | _ => BitVec.allOnes 128
  let k := k.place e.dest e.data mask e.poison
  let k := if e.shift && !e.hnd then k.shiftLatch 3 e.data e.poison else k
  (k.modQ fun q => { q with ld := q.ld.erase e, at_ := q.at_.erase e }).arrive e.seq e.arr

/-- Held data takes the entries of the oasis that are free, the oldest first (R27). -/
def refill (k : Core) : Core :=
  let all := k.q.ld ++ k.q.at_
  let free := Config.oasisDepth - (all.filter fun e => e.ret == .oasis).length
  let up := ((sortBy (fun (a b : QEnt) => Nat.ble a.rseq b.rseq) (all.filter fun e => e.ret == .port)).take free).map QEnt.seq
  let go := fun (e : QEnt) => if e.ret = .port ∧ up.contains e.seq then { e with ret := .oasis } else e
  k.modQ fun q => { q with ld := q.ld.map go, at_ := q.at_.map go }

/-- A request that is the pop of a frame (R133). -/
def isPop (e : QEnt) : Bool := e.kind == .pop

/-- The landings of this cycle but for a popped frame, and the spill loads of this cycle, written in issue order (R20, R27, R35). -/
def landAll (s : State) (c : CoreId) : State :=
  let k := s.core c
  let ls := (k.dueLandings.filter fun e => !isPop e).map fun e => (e.seq, Sum.inl e)
  let ps := (k.q.pend.filter fun p => p.ord == 3 && decide (p.due ≤ k.f.cyc)).map fun p => (p.seq, Sum.inr p)
  ((sortBy (fun (a b : Nat × Sum QEnt Pend) => Nat.ble a.1 b.1) (ls ++ ps)).foldl (fun (s : State) x => match x.2 with
    | .inl e => s.modCore c fun k => land k e
    | .inr p => s.writeBack c p) s).modCore c refill

/-- Results of S, VA and VB that are due this cycle come before its landings (R20). -/
def writesFirst (k : Core) : Bool :=
  match k.nextWrite with
  | some p => decide (p.ord < 3)
  | none => false

/-! ### The frame of a ret -/

/-- The target of a popped frame. -/
def frameTarget (e : QEnt) : W64 := BitVec.ofNat 64 (e.data.toNat % 2 ^ 48)

/-- A transfer through a register takes three idle cycles before the target's STAMP (R132). -/
def transferTo (k : Core) (a : W64) (idle : Nat) : Core :=
  k.modF fun f => { f with pc := a, extra := idle }

/-- The end of kernel time's hold: every due of the kernel moves by the cycles a handler took (R138, R350). -/
def replay (k : Core) : Core :=
  let d := k.f.cyc + 1 - k.f.kcyc
  let sh := fun (e : QEnt) => if e.hnd then e else { e with land := e.land.map (· + d) }
  { k with
    w := { k.w with uih := false }
    f := { k.f with kcyc := k.f.cyc + 1 }
    q := { k.q with
      slb := k.q.slb.map fun p => { p with due := p.due + d }
      hold := k.q.khold.orElse fun _ => k.q.hold
      shold := if k.q.khold.isSome then k.q.hold else k.q.shold
      khold := none
      ld := k.q.ld.map sh
      at_ := k.q.at_.map sh }
    mx := { k.mx with
      bankDue := k.mx.bankDue.map (· + d)
      late := k.mx.late.map fun m => { m with landDue := m.landDue + d }
      q := k.mx.q.map fun m => { m with landDue := m.landDue + d } } }

/-- The transfer that ends a handler with its cycle: kernel time goes on, the kernel's bundle is next (R138, R350), be it that of a
KIND 7 record (R358). -/
def leaveHandler (k : Core) (a : W64) : Core :=
  let k := transferTo (replay k) a 3
  k.modF fun f => { f with
    fixed := f.kidle.map (· + 3), kidle := none, knext := none, leave := none
    next := f.knext.map Prod.fst, nextNpc := a, pc := (f.knext.map Prod.snd).getD a }

/-- The landing of a global frame: the target is checked, OVP moves, the transfer is made; or the ret stays with ALIGN
(R132, R133). `ui`: the pop is a uiret's. -/
def landFrame (s : State) (c : CoreId) (e : QEnt) : State :=
  let a := frameTarget e
  if a.getLsbD 0 then
    s.modCore c fun k => k.modQ fun q => { q with
      ld := q.ld.map fun x => if x.seq = e.seq then { x with fault := some ⟨.align, 0, a⟩, land := none } else x }
  else
    s.modCore c fun k =>
      let k := (k.modQ fun q => { q with ld := q.ld.erase e }).modW fun w => { w with ovp := w.ovp - 16 }
      let ui := match decodeSlot false 0 e.body (k.m.cwt.get (bodyCx e.body)) with
        | some (.alu .uiret _) => true
        | _ => false
      (refill (if ui then k.modF fun f => { f with leave := some a } else transferTo k a 3)).arrive e.seq e.arr

/-! ### The end of a cycle -/

/-- Nothing of this cycle is left to be written or made. -/
def cycleDone (k : Core) : Bool :=
  k.nextWrite.isNone && k.dueLandings.isEmpty && (k.q.arr.isEmpty || k.car.isNone)

/-- The depths of the six queues, in the order of a monitor's SEL (R419). -/
def depths (k : Core) : List Nat :=
  [k.q.ld.length, k.q.st.length, k.q.at_.length, k.q.cp.length, k.q.sh.length, k.mx.q.length]

/-- The cycle counts as a kernel cycle: no handler runs, and none ends in it (R350). -/
def kernelCycle (k : Core) : Bool := !k.w.uih && decide (k.f.kcyc ≤ k.f.cyc)

/-- The array runs on in a frozen cycle: a bank that is not complete at countdown zero is among its causes (R38). -/
def arrayRuns (k : Core) : Bool := k.f.bankFrozen || !k.lateBanks.isEmpty

/-- The array works in this state of the core's cycle: at its end, or through a freeze that waits for a bank (R38, R193). -/
def arrayTime (k : Core) : Bool := kernelCycle k && (if k.f.frozen then arrayRuns k else k.f.at_ == .after)

/-- A call's arrival is due (R173): its own LAND and its banks are behind it. -/
def arrivalDue (k : Core) (m : MxCall) : Bool :=
  decide (m.landDue ≤ k.f.cyc) && !(k.mx.comp.any fun x => x.seq == m.seq)

/-- The step that the array takes in this cycle, with nothing to wait for (R193): a control word, a row whose operand is
there, the completion of a block, the end of a call. -/
def arrayMust (k : Core) : Bool :=
  arrayTime k &&
  ((match k.mx.q with
    | [] => false
    | m :: _ =>
      if m.fault.isSome then false
      else if m.fin then true
      else if m.rowFault.isSome && m.rows == [] then decide (k.mx.free ≤ k.mx.acyc)
      else
        match decodeMicro (k.mx.mic.get m.upc) with
        | some (.mma _ _) => m.rows != [] && decide (k.mx.free ≤ k.mx.acyc)
        | some (.lat u) => (m.rowFault.isSome || decide ((latOperand u).rows ≤ m.row + m.rows.length))
            && decide (k.mx.free ≤ k.mx.acyc)
        | some (.adv _) | some (.loop _) => decide (k.mx.free ≤ k.mx.acyc)
        | some .end_ => decide (k.mx.free ≤ k.mx.acyc + 1)
        | _ => false)
   || (k.mx.comp.any fun x => decide (x.due ≤ k.mx.acyc)) || k.mx.late.any (arrivalDue k))

/-- The row of a drain on the array can be stored: its cycles are consecutive (R193). -/
def drainMust (s : State) (c : CoreId) : Bool :=
  let k := s.core c
  arrayTime k && decide (k.mx.free ≤ k.mx.acyc) &&
  match k.headWord with
  | some (m, .drain u) =>
    let a := (m.rowAddr u.ap u.sp m.row).toNat + u.fd.width / 8 * m.elt
    let n := ((if u.q then 32 else 64) - m.elt) * (u.fd.width / 8)
    s.ordered c 5 m.seq (if u.space = .glob then s.kindsIn c 3 a n else []) false false && !(u.space == .glob && s.lateVa c .write 3 a n)
  | _ => false

/-- The cluster's monitor takes the depths of the core's queues, one sample each a cycle (R419, R420). -/
def sampleDepths (s : State) (c : CoreId) : State :=
  let ds := depths (s.core c)
  s.modD fun d => (List.range 6).foldl (fun d q => d.sample (clusOf c) 4 (some q) [ds.getD q 0]) d

/-- The end of an unfrozen cycle: SFC, SLICE, the array's cycles and the cycle count go on, events are recorded, and a uiret's
handler ends (R32, R39, R138, R295, R306, R346). -/
def nextCycle (s : State) (c : CoreId) : State :=
  (s.sampleDepths c).modCore c fun k =>
    let kc := kernelCycle k
    let k := k.dropJoins.flushEvents
    let k := match k.f.leave with
      | some a => leaveHandler k a
      | none => k
    let sfcW := k.q.pend.find? fun p => p.dest == .sw 4 && decide (p.due ≤ k.f.cyc)
    let sfc := match sfcW with
      | some p => p.val.setWidth 32
      | none => if kc then k.w.sfc + 1 else k.w.sfc
    let run := k.w.pl == 0 && k.w.slice != 0
    { k with
      w := { k.w with sfc := sfc, slice := if run then k.w.slice - 1 else k.w.slice }
      f := { k.f with cyc := k.f.cyc + 1, at_ := .start, hcyc := if k.f.held || k.holding then k.f.hcyc + 1 else 0 }
      q := { k.q with pend := k.q.pend.filter fun p => !(p.dest == .sw 4 && decide (p.due ≤ k.f.cyc)), arr := [] }
      mx := { k.mx with acyc := if kc then k.mx.acyc + 1 else k.mx.acyc }
      expired := k.expired || (run && k.w.slice == 1) }

/-- A hold has ended after some cycles: one freeze of its length to the monitor (R293). -/
def sampleHold (s : State) (c : CoreId) : State :=
  s.modD fun d => d.sample (clusOf c) 2 none [(s.core c).f.hcyc]

/-- Every result, landing and arrival of this cycle at once, for an operation that ends its own cycle (R135). -/
def settleCycle (s : State) (c : CoreId) : State :=
  let n := (s.core c).q.pend.length + (s.core c).q.slb.length
  let run := fun (s : State) (landed : Bool) => (List.range n).foldl (fun (s : State) _ =>
    match (s.core c).nextWrite with
    | some p => if landed || decide (p.ord < 3) then s.writeBack c p else s
    | none => s) s
  let s := run ((run s false).landAll c) true
  (s.core c).q.arr.foldl (fun s b => s.modBar c b.1.toFin (Bar.arrive c.val b.2 true)) s |>.modCore c fun k => k.modQ fun q => { q with arr := [] }

/-- A break or syscall stops the core at the end of its issue cycle (R135); where a landing of that cycle is missing, once
the cycle can end. DESIGN CHOICE: a supervisor's xpc too then names the next bundle, as R135 has it, and not the one that met the cause
(R347; log 105). -/
def breakStop (s : State) (c : CoreId) (t : Trap) : State :=
  if (s.core c).lateLanding || !(s.core c).lateBanks.isEmpty then
    s.modCore c fun k => k.modF fun f => { f with brk := some t }
  else
    let s := (s.settleCycle c).nextCycle c
    let s := s.modCore c fun k => k.modF fun f => { f with brk := none }
    s.trap c t false (s.core c).f.pc none (s.idleOwed c)

/-- A hold of a run's end delays no later bundle of the run, so it overruns nothing (R231, R298). -/
def endingHold (s : State) (c : CoreId) : Bool :=
  match (s.core c).q.hold with
  | some h => match h.kind with
    | .endRun _ _ | .restart => true
    | _ => false
  | none => false

/-- The head call fetches its next row from the weight store, in time or by the end of the window it waits for (R250, R251). -/
def wsRowDue (s : State) (c : CoreId) : Bool :=
  match (s.core c).headWord with
  | some (m, u) =>
    match Micro.fetched u, m.t0 with
    | some o, some t => o.space == .ws && decide (m.row + m.rows.length < o.rows) && s.ordered c 5 m.seq [] false false
        && (if m.wait = 0 then decide (t + 48 ≤ s.d.tick) else decide (m.wait ≤ s.d.tick))
    | _, _ => false
  | none => false

/-- A weight-store read that may go has not reached its bank by the last tick that R251 gives it, or is to be performed at the
end of the window it waited for (R250). -/
def wsDue (s : State) (c : CoreId) : Bool :=
  (match (s.core c).q.ld.find? fun e => !e.done with
  | some e => e.space == .ws && e.kind != .op .ldPf && e.fault.isNone
      && (if e.until_ = 0 then decide (e.t0 + 48 ≤ s.d.tick) else decide (e.until_ ≤ s.d.tick)) && s.mayGo c 0 e
  | none => false) || s.wsRowDue c

/-- A late load that R291 allows no lateness: it may go, and its lines are full. -/
def bounded (s : State) (c : CoreId) (e : QEnt) : Bool :=
  e.bound && e.fault.isNone && e.ret == .none && (e.done || (s.mayGo c 0 e && decide (e.until_ ≤ s.d.tick)
    && (match e.space with
      | .loc | .clu => let (t, off) := spadOf c e.space e.addr.toNat; (s.core t).full off e.size
      | _ => true)))

/-- One tick of a core's clock with nothing else to do in it: a frozen cycle, an idle or held cycle, or the end of a
cycle. `none` where some step of the cycle must be taken first: a bundle held by a full queue or a SEQ access issues in the cycle
after its cause has gone (R39). The idle cycles of a run's first bundle count from its fetch on (R60). -/
def turn (s : State) (c : CoreId) : Option State :=
  let k := s.core c
  if !k.active then some ((s.sampleDepths c).modCore c fun k => k.flushEvents.modF fun f => { f with cyc := f.cyc + 1 })
  else if arrayMust k || s.drainMust c || s.wsDue c then none
  else if k.f.frozen then
    some (((s.sampleDepths c).modCore c fun k =>
      let k := k.flushEvents
      { k with
        f := { k.f with frz := k.f.frz + 1 }
        mx := { k.mx with acyc := if arrayRuns k then k.mx.acyc + 1 else k.mx.acyc } }).thaw c)
  else
    let pass := fun (w : Nat) => some (s.modCore c fun k => k.modF fun f => { f with at_ := .after, wait := f.wait + w })
    let unread := k.f.first && s.fetchLate c
    match k.f.at_ with
    | .start =>
      if !k.atBoundary || k.stopPending || k.uiPending then none
      else if k.holding || k.f.held then
        if s.detNow c && !s.nextOpens c && !s.endingHold c then
          some (s.overrun c (if k.holding then 4 else if s.seqHeld c then 5 else 3) 0 k.f.pc none)
        else if !k.holding && (s.tryIssue c true).isSome then none
        else pass 0
      else if unread then pass 0
      else if s.idleOwed c = 0 then none
      else pass 1
    | .after =>
      if !cycleDone k || !k.lateBanks.isEmpty then none
      else
        match k.f.brk with
        | some t => some (s.breakStop c t)
        | none => some (s.nextCycle c)

end State

/-! ### The steps -/

/-- BUNDLE_ISSUE (R60): the idle cycles have passed, and the next bundle is fetched, expanded, checked and issued. -/
def execBundleIssue (c : CoreId) (s : State) : Host.Outcome State Fault Refusal :=
  let k := s.core c
  if k.atBoundary && !s.d.inReset && !k.stopPending && !k.uiPending && !k.holding && !k.f.held
      && s.idleOwed c == 0 && s.issue == [] then
    match s.tryIssue c false with
    | some s => .next s
    | none => notEnabled "BUNDLE_ISSUE"
  else notEnabled "BUNDLE_ISSUE"

/-- HELD_BUNDLE_ISSUE (R39): the hold before a bundle has ended. -/
def execHeldBundleIssue (c : CoreId) (s : State) : Host.Outcome State Fault Refusal :=
  let k := s.core c
  if k.atBoundary && !s.d.inReset && !k.stopPending && !k.uiPending && !k.holding && k.f.held && s.issue == [] then
    match (s.sampleHold c).tryIssue c true with
    | some s => .next s
    | none => notEnabled "HELD_BUNDLE_ISSUE"
  else notEnabled "HELD_BUNDLE_ISSUE"

/-- RESULT_WRITEBACK (R19, R20): the next result of this cycle is written. -/
def execResultWriteback (c : CoreId) (s : State) : Host.Outcome State Fault Refusal :=
  let k := s.core c
  match k.nextWrite with
  | some p =>
    if k.f.at_ == .after && !k.f.frozen && k.q.pend.contains p && (decide (p.ord < 3) || k.dueLandings.isEmpty) then
      .next (s.writeBack c p)
    else notEnabled "RESULT_WRITEBACK"
  | none => notEnabled "RESULT_WRITEBACK"

/-- LOAD_DATA_RETURN (R27, R28): data of a performed request arrives. -/
def execLoadDataReturn (c : CoreId) (seq : Nat) (s : State) : Host.Outcome State Fault Refusal :=
  let k := s.core c
  match (k.q.ld ++ k.q.at_).find? fun e => e.seq == seq && e.land.isSome && e.done && e.ret == .none
      && decide (e.until_ ≤ s.d.tick) with
  | none => notEnabled "LOAD_DATA_RETURN"
  | some e =>
    let used := ((k.q.ld ++ k.q.at_).filter fun e => e.ret == .oasis).length
    let now := e.land == some k.f.cyc && k.live e.hnd
    let r : Ret := if now then .onTime else if used < Config.oasisDepth then .oasis else .port
    let put := fun (x : QEnt) => if x.seq = seq then { x with ret := r, rseq := k.f.rseq } else x
    let s := s.modCore c fun k => (k.modQ fun q => { q with ld := q.ld.map put, at_ := q.at_.map put }).modF
      fun f => { f with rseq := f.rseq + 1 }
    let s := if now && k.f.frozen then s.modD fun d => d.sample (clusOf c) 1 none [k.f.frz] else s
    .next (s.thaw c)

/-- LANDING_DUE (R28, R291): a landing of this cycle that has not arrived freezes the core, unless its load is one that is never
late; those that have are written. -/
def execLandingDue (c : CoreId) (s : State) : Host.Outcome State Fault Refusal :=
  let k := s.core c
  if !k.active || k.dueLandings.isEmpty || k.f.frozen then notEnabled "LANDING_DUE"
  else if k.lateLanding then
    if k.dueLandings.any (s.bounded c) then notEnabled "LANDING_DUE" else .next (s.freeze c false)
  else if k.f.at_ == .after && !(State.writesFirst k) && (k.dueLandings.any fun e => !State.isPop e) then
    .next (s.landAll c)
  else notEnabled "LANDING_DUE"

/-- RET_FRAME_LANDING (R133): the global frame of a ret or uiret lands. -/
def execRetFrameLanding (c : CoreId) (s : State) : Host.Outcome State Fault Refusal :=
  let k := s.core c
  match k.dueLandings.find? State.isPop with
  | some e =>
    if k.f.at_ == .after && !k.f.frozen && !k.lateLanding && !(State.writesFirst k) then .next (s.landFrame c e)
    else notEnabled "RET_FRAME_LANDING"
  | none => notEnabled "RET_FRAME_LANDING"

/-- BANK_LANDED (R32): a bank's countdown reaches zero; the core freezes where its contents are not complete. A bank whose
contents are complete is landed by its countdown alone. -/
def execBankLanded (c : CoreId) (b : Fin 16) (s : State) : Host.Outcome State Fault Refusal :=
  let k := s.core c
  if k.active && k.mx.bankDue[b] == k.f.cyc && !k.f.bankFrozen then
    .next (if k.lateBanks.contains b then s.freeze c true else s)
  else notEnabled "BANK_LANDED"

/-- SLB_REPLAY (R350): an entry of the snapshot latch bank whose kernel cycles have run out is written. -/
def execSlbReplay (c : CoreId) (s : State) : Host.Outcome State Fault Refusal :=
  let k := s.core c
  match k.nextWrite with
  | some p =>
    if k.f.at_ == .after && !k.f.frozen && !k.q.pend.contains p && (decide (p.ord < 3) || k.dueLandings.isEmpty) then
      .next (s.writeBack c p)
    else notEnabled "SLB_REPLAY"
  | none => notEnabled "SLB_REPLAY"

end Sys2Proof.Machine
end

