-- ==== Sys2Proof/Machine/Scalar.lean ====
section
/-! DEFINITION. The arithmetic, logic, compare, guard and phasor operations of the S slot (R118 to R125). -/

namespace Sys2Proof.Machine
open Sys2Proof

namespace Core

/-- The result of an S operation of the common layout, waiting for the end of cycle t + L − 1 (R19, R118 to R120). A
handler's results shift no latch (R119). -/
def sPend (k : Core) (t : AluTag) (o : AluOp) (dest : Dest) (val : W1024) (mask : W128) (latch : W64) (fl : Flags) : Pend :=
  { k.blank 0 0 (k.body (.alu t o)) o.gd.arr with
    due := k.f.cyc + sLatency t o - 1
    dest := if o.nowb then .none else dest
    val := val
    mask := mask
    shift := if k.inHandler then none else some 0
    latch := latch.setWidth 1024
    flags := fl }

/-- A scalar result: under R119 to sD, the 64-bit extended value to the latch. -/
def sWrite (k : Core) (t : AluTag) (o : AluOp) (r : SOut) : Core :=
  k.push (k.sPend t o (k.destS o.d (o.w == 1)) (r.val.setWidth 1024) (BitVec.allOnes 128) r.val r.flags)

/-- A guard result: bits under a mask, and what the latch receives. -/
def gWrite (k : Core) (t : AluTag) (o : AluOp) (val mask : W128) (latch : W64) : Core :=
  k.push (k.sPend t o (.g (physGuard k.w.rb (o.d.setWidth 4)).toFin) (val.setWidth 1024) mask latch 0)

end Core

/-- An S operation on exact integers, finished as s_execute finishes it (R118). -/
def sInt (t : AluTag) (o : AluOp) (f : Int → Int → Int → Int) (s : State) : Host.Outcome State Fault Refusal :=
  slotStep (.alu t o) (fun s => s.modMe fun k =>
    let (a, b, c) := k.sInts o
    k.sWrite t o (finishS o (f a b c))) s

/-- An S operation with a rule of its own for the result. -/
def sOut (t : AluTag) (o : AluOp) (f : Core → SOut) (s : State) : Host.Outcome State Fault Refusal :=
  slotStep (.alu t o) (fun s => s.modMe fun k => k.sWrite t o (f k)) s

/-- A compare: every bit of the guard, and 1 or 0 to the latch (R119, R123, R125). -/
def sCmp (t : AluTag) (o : AluOp) (f : Core → Bool) (s : State) : Host.Outcome State Fault Refusal :=
  slotStep (.alu t o) (fun s => s.modMe fun k =>
    k.gWrite t o (if f k then BitVec.allOnes 128 else 0) (BitVec.allOnes 128) (if f k then 1 else 0)) s

/-- A compare of exact integers (R123). -/
def sCmpInt (t : AluTag) (o : AluOp) (f : Int → Int → Bool) (s : State) : Host.Outcome State Fault Refusal :=
  sCmp t o (fun k => f (k.sInts o).1 (k.sInts o).2.1) s

/-- The guard a source field names (R124). -/
def Core.srcG (k : Core) (x : Src) : W128 :=
  match x with
  | .reg n => k.readG (n.setWidth 4)
  | _ => 0

/-- A guard operation over all 128 bits; the latch receives bits 63 to 0 (R119, R124). -/
def sGuard (t : AluTag) (o : AluOp) (f : W128 → W128 → W128) (s : State) : Host.Outcome State Fault Refusal :=
  slotStep (.alu t o) (fun s => s.modMe fun k =>
    let r := f (k.srcG o.a) (k.srcG o.b)
    k.gWrite t o r (BitVec.allOnes 128) (r.setWidth 64)) s

/-- A phasor result in FD, zero-extended (R112, R119, R125). -/
def sPhasor (t : AluTag) (o : AluOp) (f : Nat → Nat → Nat) (s : State) : Host.Outcome State Fault Refusal :=
  sOut t o (fun k => ⟨extend64 o.cw.fd (f (k.patSrc o o.cw.fa o.a) (k.patSrc o o.cw.fb o.b)), 0⟩) s

/-- ADD (R121): a + b. -/
def execAdd (o : AluOp) (s : State) : Host.Outcome State Fault Refusal := sInt .add o (fun a b _ => a + b) s
/-- SUB (R121): a − b. -/
def execSub (o : AluOp) (s : State) : Host.Outcome State Fault Refusal := sInt .sub o (fun a b _ => a - b) s
/-- MUL (R121): a × b. -/
def execMul (o : AluOp) (s : State) : Host.Outcome State Fault Refusal := sInt .mul o (fun a b _ => a * b) s
/-- MULH (R121): floor(a × b / 2^wD). -/
def execMulh (o : AluOp) (s : State) : Host.Outcome State Fault Refusal := sInt .mulh o (fun a b _ => mulhExact o.cw.fd a b) s
/-- MIN (R121). -/
def execMin (o : AluOp) (s : State) : Host.Outcome State Fault Refusal := sInt .min o (fun a b _ => Min.min a b) s
/-- MAX (R121). -/
def execMax (o : AluOp) (s : State) : Host.Outcome State Fault Refusal := sInt .max o (fun a b _ => Max.max a b) s
/-- MOV (R121). -/
def execMov (o : AluOp) (s : State) : Host.Outcome State Fault Refusal := sInt .mov o (fun a _ _ => a) s
/-- AND (R121): bitwise, modulo 2^wD, read in FD. -/
def execAnd (o : AluOp) (s : State) : Host.Outcome State Fault Refusal :=
  sInt .and o (fun a b _ => bitwiseExact o.cw.fd (· &&& ·) a b) s
/-- OR (R121). -/
def execOr (o : AluOp) (s : State) : Host.Outcome State Fault Refusal :=
  sInt .or o (fun a b _ => bitwiseExact o.cw.fd (· ||| ·) a b) s
/-- XOR (R121). -/
def execXor (o : AluOp) (s : State) : Host.Outcome State Fault Refusal :=
  sInt .xor o (fun a b _ => bitwiseExact o.cw.fd (· ^^^ ·) a b) s
/-- ANDN (R121): a and not b. -/
def execAndn (o : AluOp) (s : State) : Host.Outcome State Fault Refusal :=
  sInt .andn o (fun a b _ => bitwiseExact o.cw.fd (andNot o.cw.fd.width) a b) s
/-- SHL (R121): a × 2^(b mod 256). -/
def execShl (o : AluOp) (s : State) : Host.Outcome State Fault Refusal := sInt .shl o (fun a b _ => shlExact a b) s
/-- SHR (R121): floor(a / 2^(b mod 256)). -/
def execShr (o : AluOp) (s : State) : Host.Outcome State Fault Refusal := sInt .shr o (fun a b _ => shrExact a b) s
/-- ROTL (R121): the FA pattern rotated left. -/
def execRotl (o : AluOp) (s : State) : Host.Outcome State Fault Refusal := sInt .rotl o (fun a b _ => rotlExact o.cw.fa a b) s
/-- SEL (R121): a where bit 0 of gC is 1, else b. -/
def execSel (o : AluOp) (s : State) : Host.Outcome State Fault Refusal :=
  slotStep (.alu .sel o) (fun s => s.modMe fun k =>
    let (a, b, _) := k.sInts o
    k.sWrite .sel o (finishS o (if (k.srcG o.c).getLsbD 0 then a else b))) s
/-- FMA (R121): a × b + c. -/
def execFma (o : AluOp) (s : State) : Host.Outcome State Fault Refusal := sInt .fma o (fun a b c => a * b + c) s
/-- FMS (R121): a × b − c. -/
def execFms (o : AluOp) (s : State) : Host.Outcome State Fault Refusal := sInt .fms o (fun a b c => a * b - c) s
/-- DIV (R122). -/
def execDiv (o : AluOp) (s : State) : Host.Outcome State Fault Refusal :=
  sOut .div o (fun k => divOut o (k.sInts o).1 (k.sInts o).2.1) s
/-- REM (R122). -/
def execRem (o : AluOp) (s : State) : Host.Outcome State Fault Refusal :=
  sOut .rem o (fun k => remOut o (k.sInts o).1 (k.sInts o).2.1) s
/-- CLZ (R121). -/
def execClz (o : AluOp) (s : State) : Host.Outcome State Fault Refusal := sInt .clz o (fun a _ _ => clzExact o.cw.fa a) s
/-- POPC (R121). -/
def execPopc (o : AluOp) (s : State) : Host.Outcome State Fault Refusal := sInt .popc o (fun a _ _ => popcExact o.cw.fa a) s
/-- CVT (R121, R125): between integer formats, or between ph8 and ph16 under R110. -/
def execCvt (o : AluOp) (s : State) : Host.Outcome State Fault Refusal :=
  if o.cw.fa.isPh then sPhasor .cvt o (fun a _ => let (u, g) := phOf o.cw.fa a; phTo o.cw.fd u g) s
  else sInt .cvt o (fun a _ _ => a) s
/-- CMP_EQ (R123). -/
def execCmpEq (o : AluOp) (s : State) : Host.Outcome State Fault Refusal := sCmpInt .cmpEq o (fun a b => decide (a = b)) s
/-- CMP_NE (R123). -/
def execCmpNe (o : AluOp) (s : State) : Host.Outcome State Fault Refusal := sCmpInt .cmpNe o (fun a b => decide (a ≠ b)) s
/-- CMP_LT (R123). -/
def execCmpLt (o : AluOp) (s : State) : Host.Outcome State Fault Refusal := sCmpInt .cmpLt o (fun a b => decide (a < b)) s
/-- CMP_LE (R123). -/
def execCmpLe (o : AluOp) (s : State) : Host.Outcome State Fault Refusal := sCmpInt .cmpLe o (fun a b => decide (a ≤ b)) s
/-- CMP_PHB (R125): phase_order is BEFORE. -/
def execCmpPhb (o : AluOp) (s : State) : Host.Outcome State Fault Refusal :=
  sCmp .cmpPhb o (fun k => phaseOrder o.cw.fa o.cw.fb (k.patSrc o o.cw.fa o.a) (k.patSrc o o.cw.fb o.b) == .before) s
/-- CMP_PHO (R125): phase_order is OPPOSITE. -/
def execCmpPho (o : AluOp) (s : State) : Host.Outcome State Fault Refusal :=
  sCmp .cmpPho o (fun k => phaseOrder o.cw.fa o.cw.fb (k.patSrc o o.cw.fa o.a) (k.patSrc o o.cw.fb o.b) == .opposite) s
/-- GAND (R124). -/
def execGand (o : AluOp) (s : State) : Host.Outcome State Fault Refusal := sGuard .gand o (fun a b => a &&& b) s
/-- GOR (R124). -/
def execGor (o : AluOp) (s : State) : Host.Outcome State Fault Refusal := sGuard .gor o (fun a b => a ||| b) s
/-- GXOR (R124). -/
def execGxor (o : AluOp) (s : State) : Host.Outcome State Fault Refusal := sGuard .gxor o (fun a b => a ^^^ b) s
/-- GANDN (R124): gA and not gB. -/
def execGandn (o : AluOp) (s : State) : Host.Outcome State Fault Refusal := sGuard .gandn o (fun a b => a &&& ~~~b) s
/-- GTOS (R124): one half of a guard. -/
def execGtos (o : AluOp) (s : State) : Host.Outcome State Fault Refusal :=
  sOut .gtos o (fun k => ⟨(k.srcG o.a).extractLsb' (64 * o.imm.toNat) 64, 0⟩) s
/-- STOG (R124): one half of a guard is written; the other keeps its last write. The latch takes a. -/
def execStog (o : AluOp) (s : State) : Host.Outcome State Fault Refusal :=
  slotStep (.alu .stog o) (fun s => s.modMe fun k =>
    let a := k.scalarSrc o .none o.a
    let half := BitVec.ofNat 128 (2 ^ 64 - 1) <<< (64 * o.imm.toNat)
    k.gWrite .stog o (a.setWidth 128 <<< (64 * o.imm.toNat)) half a) s
/-- PHMUL (R112, R125): the angle sum. -/
def execPhmul (o : AluOp) (s : State) : Host.Outcome State Fault Refusal :=
  sPhasor .phmul o (phComb false o.cw.fa o.cw.fb o.cw.fd) s
/-- PHSUB (R112, R125): the angle difference. -/
def execPhsub (o : AluOp) (s : State) : Host.Outcome State Fault Refusal :=
  sPhasor .phsub o (phComb true o.cw.fa o.cw.fb o.cw.fd) s

end Sys2Proof.Machine
end

