-- ==== Sys2Proof/Machine/Control.lean ====
section
/-! DEFINITION. Transfers of control (R131 to R134), status words (R126 to R129), matrix parameters (R130), breaks and
system calls (R135), and user-interrupt handlers (R136 to R138). -/

namespace Sys2Proof.Machine
open Sys2Proof

namespace Core

/-- The arrival of a transfer or of an S operation without a result, at the end of its issue cycle (R66). -/
def arriveS (k : Core) (x : SlotOp) : Core :=
  match (slotGd x).arr with
  | none => k
  | some b => k.push (k.blank 0 0 (k.body x) (some b))

/-- The 16 bytes of a frame (R133). -/
def frameBytes (ret : W64) : List Byte := bytesOf 16 (ret.toNat % 2 ^ 48)

/-- A memory operation of this cycle with nothing performed. -/
def entry (k : Core) (kind : QKind) (slot : SlotId) (body : W64) (sp : Space) (a : W64) (size : Nat) (arr : Option (BitVec 4)) :
    QEnt where
  seq := k.f.seq + slot.val
  kind := kind
  ipc := k.f.ipc
  body := body
  space := sp
  addr := a
  handle := 0
  size := size
  data := 0
  cmp := 0
  land := none
  dest := .none
  shift := false
  prog := 0
  done := false
  ret := .none
  rseq := 0
  until_ := 0
  t0 := 0
  bound := false
  poison := false
  fault := none
  arr := arr
  hnd := k.inHandler

/-- push of a frame (R36, R133): in the carve-out at once, or a store of the store queue. `x` none: the frame of a user
interrupt, which no operation made: it has no body (log 19). -/
def pushFrame (k : Core) (x : Option SlotOp) (ret : W64) : Core :=
  match k.pushAt with
  | .spad off =>
    let k := (k.writeSpad off (frameBytes ret)).modW fun w => { w with fsp := w.fsp - 16 }
    match x with
    | some x => k.arriveS x
    | none => k
  | .glob va =>
    let body := match x with
      | some x => k.body x
      | none => 0
    let e := { k.entry .push 0 body .glob va 16 (x.bind fun x => (slotGd x).arr) with
      data := (ret &&& 0xFFFFFFFFFFFF).setWidth 1024
      cmp := match x with
        | some (.alu _ o) => k.scalarSrc o .none o.a
        | _ => 0 }
    (k.modQ fun q => { q with st := q.st ++ [e] }).modW fun w => { w with ovp := w.ovp + 16 }

/-- The pop of a global frame: a load with LAND 3; three idle cycles follow (R132, R133). -/
def popGlobal (k : Core) (x : SlotOp) (va : W64) : Core :=
  let e := { k.entry .pop 0 (k.body x) .glob va 16 (slotGd x).arr with land := some (k.f.cyc + 2) }
  (k.modQ fun q => { q with ld := q.ld ++ [e] }).modF fun f => { f with extra := 3 }

/-- The target of a displacement (R68). -/
def brTarget (k : Core) (o : BrOp) : W64 := k.f.ipc + (o.disp.signExtend 64) * 2

/-- The target in a register (R131). -/
def regTarget (k : Core) (o : AluOp) : W64 := k.scalarSrc o .none o.a &&& 0xFFFFFFFFFFFF

end Core

/-- BR (R131, R132). -/
def execBr (o : BrOp) (s : State) : Host.Outcome State Fault Refusal :=
  slotStep (.br .br o) (fun s => s.modMe fun k => (State.transferTo k (k.brTarget o) 0).arriveS (.br .br o)) s

/-- JR (R131, R132): three idle cycles come before the target's STAMP. -/
def execJr (o : AluOp) (s : State) : Host.Outcome State Fault Refusal :=
  slotStep (.alu .jr o) (fun s => s.modMe fun k => (State.transferTo k (k.regTarget o) 3).arriveS (.alu .jr o)) s

/-- CALL (R131, R133). -/
def execCall (o : BrOp) (s : State) : Host.Outcome State Fault Refusal :=
  slotStep (.br .call o) (fun s => s.modMe fun k =>
    State.transferTo (k.pushFrame (some (.br .call o)) k.f.npc) (k.brTarget o) 0) s

/-- CALLR (R131, R133). -/
def execCallr (o : AluOp) (s : State) : Host.Outcome State Fault Refusal :=
  slotStep (.alu .callr o) (fun s => s.modMe fun k =>
    State.transferTo (k.pushFrame (some (.alu .callr o)) k.f.npc) (k.regTarget o) 3) s

/-- RET (R133): a scratchpad frame is read at once; a global frame lands at the end of cycle t + 2. DESIGN CHOICE: the frame is read
whatever the full/empty bit of its line, on which R133 and R247 say nothing for a pop (log 86). -/
def execRet (o : AluOp) (s : State) : Host.Outcome State Fault Refusal :=
  slotStep (.alu .ret o) (fun s => s.modMe fun k =>
    match k.popAt with
    | some (.spad off) =>
      ((State.transferTo k (k.spadFrame off) 3).modW fun w => { w with fsp := w.fsp + 16 }).arriveS (.alu .ret o)
    | some (.glob va) => k.popGlobal (.alu .ret o) va
    | none => k) s

/-- LOOP_BR (R134): LC down, RB down, the stage guard under the new RB, and the branch; with LC = 0 nothing changes. -/
def execLoopBr (o : BrOp) (s : State) : Host.Outcome State Fault Refusal :=
  slotStep (.br .loopBr o) (fun s => s.modMe fun k =>
    let x : SlotOp := .br .loopBr o
    if k.w.lc = 0 then k.arriveS x
    else
      let rb := k.w.rb - 1
      let p := k.blank 0 0 (k.body x) none
      let stage : W128 := if k.w.ec.toNat < k.w.lc.toNat then BitVec.allOnes 128 else 0
      let k := k.push { p with dest := .sw 2, val := (k.w.lc - 1).setWidth 1024 }
      let k := k.push { p with dest := .sw 1, val := rb.setWidth 1024 }
      let k := k.push { p with dest := .g (Fin.ofNat 16 (8 + rb.toNat % 8)), val := stage.setWidth 1024 }
      (State.transferTo k (k.brTarget o) 0).arriveS x) s

/-- A status word as a read returns it (R126 to R129, R196, R295, R305, R346). -/
def State.readSw (s : State) (c : CoreId) (n : Nat) : W64 :=
  let k := s.core c
  if 0x020 ≤ n ∧ n < 0x028 then k.f.ib.extractLsb' (64 * (n - 0x020)) 64
  else if 0x040 ≤ n ∧ n < 0x060 then (k.w.dcause.getD ((n - 0x040) / 2) 0).extractLsb' (64 * (n % 2)) 64
  else
    match n with
    | 0x000 => k.ksr
    | 0x001 => k.w.rb.setWidth 64
    | 0x002 => k.w.lc.setWidth 64
    | 0x003 => k.w.ec.setWidth 64
    | 0x004 => k.w.sfc.setWidth 64
    | 0x005 => k.w.flo.setWidth 64
    | 0x006 => k.w.fhi.setWidth 64
    | 0x007 => k.w.fsp.setWidth 64
    | 0x008 => k.w.ovb
    | 0x009 => k.w.ovp
    | 0x00A => k.w.htb
    | 0x00B => k.mrow
    | 0x00C => k.w.aown
    | 0x00D => s.d.refresh.setWidth 64
    | 0x00E => k.w.uiv.setWidth 64
    | 0x00F => k.w.uis.setWidth 64
    | 0x010 => k.w.cause
    | 0x011 => k.w.cdata
    | 0x012 => k.w.xpc.setWidth 64
    | 0x013 => k.w.ctxid.setWidth 64
    | 0x014 => k.w.carea
    | 0x015 => k.w.slice.setWidth 64
    | 0x016 => k.w.svec.setWidth 64
    | _ => 0

/-- MFSW (R126). -/
def execMfsw (o : AluOp) (s : State) : Host.Outcome State Fault Refusal :=
  slotStep (.alu .mfsw o) (fun s => s.modMe fun k => k.sWrite .mfsw o ⟨s.readSw s.cur o.imm.toNat, 0⟩) s

/-- The bundle now issuing holds sy.frame, whose write of SFC stands (R126, R296). -/
def holdsFrame (k : Core) : Bool :=
  slotPresent k.f.ib 7 && (match decodeSlot false 7 (bodyOf k.f.ib 7) 0 with
    | some (.sy .syFrame _) => true
    | _ => false)

/-- MTSW (R126): the word takes a at the end of the issue cycle; SFC's write beside sy.frame is dropped. -/
def execMtsw (o : AluOp) (s : State) : Host.Outcome State Fault Refusal :=
  slotStep (.alu .mtsw o) (fun s => s.modMe fun k =>
    let x : SlotOp := .alu .mtsw o
    if o.imm = 4 ∧ holdsFrame k then k.arriveS x
    else
      let p := k.blank 0 0 (k.body x) none
      (k.push { p with dest := .sw o.imm.toNat, val := (k.scalarSrc o .none o.a).setWidth 1024 }).arriveS x) s

/-- MOV_MP (R130): the front copy of a parameter. -/
def execMovMp (o : AluOp) (s : State) : Host.Outcome State Fault Refusal :=
  slotStep (.alu .movMp o) (fun s => s.modMe fun k =>
    let a := k.scalarSrc o .none o.a
    k.push (k.sPend .movMp o (.mp (o.d.setWidth 3).toFin) (a.setWidth 1024) (BitVec.allOnes 128) a 0)) s

/-- MFMP (R130). -/
def execMfmp (o : AluOp) (s : State) : Host.Outcome State Fault Refusal :=
  slotStep (.alu .mfmp o) (fun s => s.modMe fun k => k.sWrite .mfmp o ⟨k.r.mp[(o.imm.setWidth 3).toFin], 0⟩) s

/-- The stop of a break or syscall at the end of its issue cycle (R135). -/
def breakStep (t : AluTag) (c : Cause) (o : AluOp) (s : State) : Host.Outcome State Fault Refusal :=
  slotStep (.alu t o) (fun s =>
    (s.modMe fun k => k.arriveS (.alu t o)).breakStop s.cur ⟨c, 0, o.imm.setWidth 64⟩) s

/-- BREAK (R135). -/
def execBreak (o : AluOp) (s : State) : Host.Outcome State Fault Refusal := breakStep .break .break_ o s
/-- SYSCALL (R135). -/
def execSyscall (o : AluOp) (s : State) : Host.Outcome State Fault Refusal := breakStep .syscall .syscall o s

/-- A handler starts on the first held interrupt (R136, R138). -/
def startHandler (k : Core) (u : W64) : Core :=
  { k with
    w := { k.w with uis := u.setWidth 51, uih := true }
    f := { k.f with hpeb := 0, pc := k.w.uiv.setWidth 64 }
    q := { k.q with ui := k.q.ui.tail } }

/-- UIRET (R138): the next held interrupt, or the frame is popped and the kernel goes on from the end of this cycle; the bundle
of the uiret is the handler's own to its end. -/
def execUiret (o : AluOp) (s : State) : Host.Outcome State Fault Refusal :=
  slotStep (.alu .uiret o) (fun s => s.modMe fun k =>
    let x : SlotOp := .alu .uiret o
    match k.q.ui with
    | u :: _ => ((startHandler k u).modF fun f => { f with extra := 3 }).arriveS x
    | [] =>
      match k.popAt with
      | some (.spad off) =>
        ((k.arriveS x).modW fun w => { w with fsp := w.fsp + 16 }).modF fun f => { f with leave := some (k.spadFrame off) }
      | some (.glob va) => k.popGlobal x va
      | none => k) s

/-- The kernel gives way to its handler (R136, R350): its results go to the snapshot latch bank, its hold is put aside, and with it the
bundle of a KIND 7 record, which issues once the handler has ended (R358). The frame returns to its next stored bundle. -/
def freezeKernel (k : Core) (owed : Nat) : Core :=
  let k := k.modF fun f => { f with seq := f.seq + 8 }
  let k := k.pushFrame none (if k.f.next.isSome then k.f.nextNpc else k.f.pc)
  let k := k.modQ fun q => { q with slb := q.slb ++ q.pend, pend := [], khold := q.hold, hold := none }
  k.modF fun f => { f with
    kcyc := f.cyc, kidle := some owed, knext := f.next.map fun e => (e, f.pc), next := none
    wait := 0, extra := 0, fixed := none, held := false, hcyc := 0 }

/-- USER_INTERRUPT_DELIVERY (R136, R350): at a boundary with UIH = 0. With UIV = 0 the interrupt is lost. A hold that is put aside is
sampled as far as it has come (R293). -/
def execUserInterruptDelivery (c : CoreId) (s : State) : Host.Outcome State Fault Refusal :=
  let k := s.core c
  match k.q.ui with
  | u :: us =>
    if k.atBoundary && !k.stopPending && k.uiPending then
      if k.w.uiv = 0 then
        .next (s.modCore c fun k => (k.modQ fun q => { q with ui := us }).modW fun w => { w with flags := w.flags ||| flagUilost })
      else if k.q.st.length < Config.storeDepth || (match k.pushAt with | .spad _ => true | .glob _ => false) then
        let owed := s.idleOwed c
        .next ((s.sampleCut c).modCore c fun k => startHandler (freezeKernel k owed) u)
      else notEnabled "USER_INTERRUPT_DELIVERY"
    else notEnabled "USER_INTERRUPT_DELIVERY"
  | [] => notEnabled "USER_INTERRUPT_DELIVERY"

end Sys2Proof.Machine
end

