-- ==== Sys2Proof/Machine/System.lean ====
section
/-! DEFINITION. The supervisor's and the machine level's own operations (R139 to R142, R354). Those that read or write memory hold
issue until the core's earlier accesses are performed, and act at the end of their hold. -/

namespace Sys2Proof.Machine
open Sys2Proof

/-! ### What a core holds of another context -/

/-- Free words that keep apart from those of stores: the n-th register with no defined value (R10, R329). -/
def freeReg (fresh n : Nat) : W64 := Config.freeWord fresh (2 ^ 64 + n)

/-- Free bits of a wider register. -/
def freeWide (w fresh n : Nat) : BitVec w :=
  BitVec.ofNat w (packElts 64 ((List.range 16).map fun j => (freeReg fresh (1024 + 16 * n + j)).toNat))

/-- Free bits of a narrower word. -/
def freshBits {w : Nat} (fresh n : Nat) : BitVec w := (freeReg fresh n).setWidth w

/-- The registers at the start of a run: s0 to s4 given, every latch invalid, the others open (R329). -/
def freshRegs (fresh : Nat) (ss : Vector W64 5) : Regs where
  s := Vector.ofFn fun i : Fin 64 => if h : i.val < 5 then ss[i.val] else freeReg fresh i.val
  v := Vector.ofFn fun i : Fin 64 => freeWide 1024 fresh i.val
  g := Vector.ofFn fun i : Fin 16 => if i.val = 0 then BitVec.allOnes 128 else freeWide 128 fresh (64 + i.val)
  x := Vector.ofFn fun i : Fin 16 => freeWide 1024 fresh (80 + i.val)
  xv := 0
  mp := Vector.ofFn fun i : Fin 8 => freeReg fresh (64 + i.val)
  sh := Vector.ofFn fun i : Fin 16 => freeReg fresh (72 + i.val)
  sp := 0
  vp := 0
  gp := 0
  xp := 0
  mpp := 0
  shp := 0

namespace Core

/-- The shadow set that a core holds for another context reads as open values (R10, R137). Contexts are told apart by their creation. -/
def newShadow (k : Core) (fresh no : Nat) : Core :=
  if k.own = some no then k
  else { k with r := { k.r with sh := (freshRegs fresh (Vector.replicate 5 0)).sh, shp := 0 }, own := some no }

/-- What a core still holds of another context reads as open values (R10). -/
def forget (k : Core) (fresh no : Nat) : Core :=
  if k.own = some no then k
  else
    let k := k.newShadow fresh no
    { k with
      w := { k.w with
        flags := freshBits fresh 90, rb := freshBits fresh 91, lc := freshBits fresh 92, ec := freshBits fresh 93
        sfc := freshBits fresh 94, flo := freshBits fresh 95, fhi := freshBits fresh 96, fsp := freshBits fresh 97
        ovb := freeReg fresh 98, ovp := freeReg fresh 99, htb := freeReg fresh 100 &&& 0x0FFFFFFFFFFFFFC1, mrow := 0
        uiv := freshBits fresh 101 &&& ~~~1, uis := freshBits fresh 102, xaddr := freeReg fresh 103
        dcause := Vector.ofFn fun i : Fin 16 => freeWide 128 fresh (96 + i.val) }
      ph := Vector.replicate 4 .reset
      rg := .reset }

end Core

namespace State

/-- Writes bytes through translation page by page, as far as the pages go; the fault that ended it. -/
def putVa (s : State) (c : CoreId) : Nat → Nat → List Byte → State × Option Trap
  | 0, _, _ => (s, none)
  | _, _, [] => (s, none)
  | fuel + 1, va, b :: bs =>
    match s.xlate c va .write with
    | .error t => (s, some t)
    | .ok p =>
      let n := min (bs.length + 1) p.left
      if s.d.gone p.pa n then (s, some (trapAt .poison va))
      else ((s.modD fun d => d.writeMem p.key p.pa ((b :: bs).take n)).textWritten [(p.pa, n)]).putVa c fuel (va + n) ((b :: bs).drop n)

/-- Writes several parts, each at its address, up to the first fault (R363). -/
def putParts (s : State) (c : CoreId) : List (Nat × List Byte) → State × Option Trap
  | [] => (s, none)
  | (a, bs) :: ps =>
    match s.putVa c 16 a bs with
    | (s, none) => s.putParts c ps
    | r => r

/-- Marks or reads the poison of the 64-byte units under a virtual range that maps (R406). -/
def poisonVa (s : State) (c : CoreId) (va n : Nat) : State :=
  match s.placesVa c .write 16 va n with
  | .ok ps => s.modD fun d => ps.foldl (fun d p => d.setPoison p.1.pa p.2) d
  | .error _ => s

/-- Whether a virtual range holds a poisoned unit. -/
def poisonedVa (s : State) (c : CoreId) (va n : Nat) : Bool :=
  match s.placesVa c .read 16 va n with
  | .ok ps => ps.any fun p => s.d.memPoisoned p.1.pa p.2
  | .error _ => false

end State

/-- Words of w bits, n bytes each, from bytes. -/
def wordsOf (w n count : Nat) (bs : List Byte) : List (BitVec w) :=
  (List.range count).map fun i => BitVec.ofNat w (natOf ((bs.drop (n * i)).take n))

/-- A set of lines as the bits of 384 bytes (R352). -/
def lineBits (f : Nat → Bool) : List Byte :=
  (List.range 384).map fun i => BitVec.ofNat 8 ((List.range 8).map fun j => if f (8 * i + j) then 2 ^ j else 0).sum

/-- The lines whose bits are set. -/
def linesFrom (bs : List Byte) (set : Bool) : NatSet :=
  (List.range 3072).filter fun n => (bs.getD (n / 8) 0).getLsbD (n % 8) == set

namespace Core

/-- Open phase e as its word and its ranges (R352). -/
def phaseWord (p : Phase) : W64 :=
  BitVec.ofNat 64 (p.cx.toNat + 512 * bit p.opened + 1024 * p.rd.length + 8192 * p.wr.length)

/-- The ranges of a phase, at the places a descriptor has them (R75). -/
def phaseRanges (p : Phase) : List Byte :=
  let put : List (Nat × Nat) → List Nat := fun rs => (List.range 4).map fun i => match rs[i]? with
    | some r => r.1 + 4096 * r.2
    | none => 0
  bytesOf 32 (packElts 24 (put p.rd ++ put p.wr))

/-- A phase read back: exactly NRD read ranges and NWR write ranges (R352). -/
def phaseOf (w : Nat) (ranges : Nat) : Phase :=
  let get := fun (i : Nat) => (field ranges (24 * i) 12, field ranges (24 * i + 12) 12)
  ⟨field w 9 1 == 1, BitVec.ofNat 9 w, (List.range (min (field w 10 3) 4)).map get,
    (List.range (min (field w 13 3) 4)).map fun i => get (4 + i)⟩

/-- The parts of a context area that ctx.save writes, by offset (R352). The word BSV at 0x310A0 is the supervisor's. -/
def bulkParts (k : Core) : List (Nat × List Byte) :=
  let words := fun (w n count : Nat) (m : Sparse w) => ((m.read 0 count).map fun x => bytesOf n x.toNat).flatten
  [(0x24000, words 256 32 512 k.m.cwt ++ words 64 8 256 k.mx.ent ++ words 64 8 2048 k.mx.mic ++ words 64 8 256 k.mx.sent
      ++ words 64 8 2048 k.mx.smic ++ (k.ph.toList.map fun p => wordBytes (phaseWord p)).flatten
      ++ (k.ph.toList.map phaseRanges).flatten),
   (0x310A8, zeros 88 ++ (k.w.dcause.toList.map fun e => bytesOf 16 e.toNat).flatten
      ++ lineBits (fun l => !k.m.empty.contains l) ++ zeros 128 ++ lineBits (fun l => k.m.spadP.contains l)
      ++ zeros (0x32000 - 0x31580)),
   (0x52000, k.m.spad.read 0 Config.spadBytes)]

/-- The core after ctx.load of an area's bytes from 0x24000 on (R354). -/
def loadBulk (k : Core) (b : List Byte) : Core :=
  let part := fun (o n : Nat) => (b.drop (o - 0x24000)).take n
  { k with
    m := { k.m with
      cwt := Sparse.entries 0 (wordsOf 256 32 512 (part 0x24000 16384))
      cwtP := []
      spad := Sparse.entries 0 (part 0x52000 Config.spadBytes)
      empty := linesFrom (part 0x31200 384) false
      spadP := linesFrom (part 0x31400 384) true }
    mx := { k.mx with
      ent := Sparse.entries 0 (wordsOf 64 8 256 (part 0x28000 2048))
      mic := Sparse.entries 0 (wordsOf 64 8 2048 (part 0x28800 16384))
      sent := Sparse.entries 0 (wordsOf 64 8 256 (part 0x2C800 2048))
      smic := Sparse.entries 0 (wordsOf 64 8 2048 (part 0x2D000 16384))
      entP := []
      micP := []
      sentP := []
      smicP := [] }
    ph := Vector.ofFn fun e : Fin 4 =>
      phaseOf (natOf (part (0x31000 + 8 * e.val) 8)) (natOf (part (0x31020 + 32 * e.val) 24))
    w := { k.w with dcause := Vector.ofFn fun e : Fin 16 => BitVec.ofNat 128 (natOf (part (0x31100 + 16 * e.val) 16)) } }

end Core

/-- A supervisor operation of the S slot whose effect is on a and b. -/
def supStep (t : AluTag) (o : AluOp) (f : W64 → W64 → State → State) (s : State) : Host.Outcome State Fault Refusal :=
  slotStep (.alu t o) (fun s => f (s.me.scalarSrc o .none o.a) (s.me.scalarSrc o .none o.b) s) s

/-- The operation has done its work: its arrival at the end of the cycle. -/
def supDone (t : AluTag) (o : AluOp) (s : State) : State := s.modMe fun k => k.arriveS (.alu t o)

/-- The operation holds issue (R139, R140). -/
def supHold (t : AluTag) (o : AluOp) (h : W64 → W64 → HoldKind) (s : State) : Host.Outcome State Fault Refusal :=
  supStep t o (fun a b s => s.modMe fun k => k.modQ fun q => { q with
    shold := some ⟨h a b, k.f.seq, k.f.ipc, k.body (.alu t o), 0, b, o.gd.arr, false, none⟩ }) s

/-- RESUME (R140): holds until everything the supervisor stream issued is complete; the restore ends the hold (R358). -/
def execResume (o : AluOp) (s : State) : Host.Outcome State Fault Refusal := supHold .resume o (fun a b => .resume a b.toNat) s
/-- CWT_WR (R139, R140). -/
def execCwtWr (o : AluOp) (s : State) : Host.Outcome State Fault Refusal := supHold .cwtWr o (.sup .cwtWr) s

/-- CWT_RD (R139): the entry's store enters the store queue. -/
def execCwtRd (o : AluOp) (s : State) : Host.Outcome State Fault Refusal :=
  supStep .cwtRd o (fun a b s => supDone .cwtRd o (s.modMe fun k =>
    let e := { k.entry .cwtRd 0 (k.body (.alu .cwtRd o)) .glob b 32 none with
      data := (k.m.cwt.get (a.toNat % 512)).setWidth 1024 }
    k.modQ fun q => { q with st := q.st ++ [e] })) s

/-- MPS_WR (R139, R140). -/
def execMpsWr (o : AluOp) (s : State) : Host.Outcome State Fault Refusal := supHold .mpsWr o (.sup .mpsWr) s
/-- CTX_SAVE (R354). -/
def execCtxSave (o : AluOp) (s : State) : Host.Outcome State Fault Refusal := supHold .ctxSave o (.sup .ctxSave) s
/-- CTX_LOAD (R354, R388). -/
def execCtxLoad (o : AluOp) (s : State) : Host.Outcome State Fault Refusal := supHold .ctxLoad o (.sup .ctxLoad) s
/-- BANK_SAVE (R141). -/
def execBankSave (o : AluOp) (s : State) : Host.Outcome State Fault Refusal := supHold .bankSave o (.sup .bankSave) s
/-- BANK_LOAD (R141). -/
def execBankLoad (o : AluOp) (s : State) : Host.Outcome State Fault Refusal := supHold .bankLoad o (.sup .bankLoad) s

/-- The first virtual address of a context area whose translation breaks the run of physical addresses (R354). -/
def runBreak : Nat → List (Place × Nat) → Nat → Option Nat
  | _, [], _ => none
  | pa, (p, n) :: ps, va => if p.pa = pa then runBreak (pa + n) ps (va + n) else some va

/-- A word of a context area as a stream of its function reads it: what hardware wrote there for a context of the function, else what
the page of the address holds (R354; log 12). -/
def State.areaWord (s : State) (c : CoreId) (f : FnId) (pa va : Nat) : Option Nat :=
  match (s.d.tag (pa / 64)).area.bind fun n => s.d.ctxs.find? fun y => y.no == n && y.fn == f with
  | some y => some (natOf (s.d.areaRead y pa 8))
  | none => match s.readVa c .read 2 va 8 with
    | .ok bs => some (natOf bs)
    | .error _ => none

/-- What ctx.load finds at an area (R354): the live context of the function that its ctxid names, also where the supervisor has written
another there, and BULK. It is one that the core may run (R383). -/
def State.areaCtx (s : State) (c : CoreId) (pa va : Nat) : Option Ctx :=
  match s.ctxOf c with
  | none => none
  | some x =>
    match s.areaWord c x.fn (pa + 0x88) (va + 0x88), s.areaWord c x.fn (pa + 0xA0) (va + 0xA0) with
    | some id, some st => (s.d.ctxs.find? fun y => y.id.toNat == id && y.fn == x.fn).filter fun y => field st 42 1 == 1 && s.ownCluster c y
    | _, _ => none

/-- The effect of ctx.load (R354, R388): the bulk parts, through the pages by which ctx.save wrote them, the context's ctxid and PTB, and
CAREA. A shadow set of another context goes with it (R10, R137). -/
def State.ctxLoadNow (s : State) (c : CoreId) (a : Nat) : State × Option Trap :=
  match s.placesVa c .read 16 a Config.areaBytes, s.readVa c .read 16 (a + 0x24000) (Config.areaBytes - 0x24000) with
  | .error t, _ => (s, some t)
  | _, .error t => (s, some t)
  | .ok ps, .ok bulk =>
    let pa := (ps.head?.map fun p => p.1.pa).getD 0
    if ps.any fun p => s.d.gone p.1.pa p.2 then (s, some (trapAt .poison a))
    else
      match s.areaCtx c pa a, runBreak pa ps a with
      | none, _ => (s, some (trapAt .protection a))
      | some _, some va => (s, some (trapAt .protection va))
      | some y, none =>
        let s := s.modCore c fun k =>
          let k := { (k.newShadow s.fresh y.no).loadBulk bulk with lineCtx := some y.id, lineCar := k.car }
          k.modW fun w => { w with ctxid := y.id, ptb := y.ptb, sec := y.sec, carea := BitVec.ofNat 64 pa }
        (s.modD fun d => { d with
          ctxs := d.ctxs.map fun z => if z.id = y.id then { z with carea := BitVec.ofNat 64 pa } else z }, none)

/-- The selected banks and latches with their sizes, in order: banks first (R141). -/
def bankItems (b : W64) : List (Sum Nat Nat) :=
  (((List.range 16).filter fun i => b.getLsbD i).map Sum.inl) ++ (((List.range 4).filter fun i => b.getLsbD (16 + i)).map Sum.inr)

/-- The bytes of a bank or a latch, with the 64-byte units of it that carry poison (R406). -/
def itemBytes (k : Core) : Sum Nat Nat → List Byte × List Nat
  | .inl b => ((k.m.bank.read (32 * b) 32).flatMap fun r => bytesOf 128 r.toNat,
      ((List.range 64).filter fun u => k.m.bankP.contains (32 * b + u / 2)))
  | .inr l => (k.m.sl.read (16384 * l) 16384, (List.range 256).filter fun u => k.m.slP.getLsbD (2 * l + u / 128))

/-- bank.save of the selected items from an address on, up to a fault (R141, R363). -/
def bankSaveFrom (s : State) (c : CoreId) : List (Sum Nat Nat) → Nat → State × Option Trap
  | [], _ => (s, none)
  | x :: xs, a =>
    let (bs, ps) := itemBytes (s.core c) x
    match s.putVa c 8 a bs with
    | (s, some t) => (s, some t)
    | (s, none) =>
      bankSaveFrom (ps.foldl (fun (s : State) u => s.poisonVa c (a + 64 * u) 64) s) c xs (a + bs.length)

/-- bank.load of the selected items (R141, R363). -/
def bankLoadFrom (s : State) (c : CoreId) : List (Sum Nat Nat) → Nat → State × Option Trap
  | [], _ => (s, none)
  | x :: xs, a =>
    let n := match x with
      | .inl _ => 4096
      | .inr _ => 16384
    match s.readVa c .read 8 a n with
    | .error t => (s, some t)
    | .ok bs =>
      let bad := fun (o n : Nat) => s.poisonedVa c (a + o) n
      let s := s.modCore c fun k => match x with
        | .inl b =>
          let k := k.modM fun m => { m with
            bank := m.bank.write (32 * b) (wordsOf 1024 128 32 bs)
            bankP := (List.range 32).foldl (fun p r => setPut p (32 * b + r) (bad (128 * r) 128)) m.bankP }
          k.modMx fun m => { m with bankDue := m.bankDue.set! b (min (m.bankDue.getD b 0) k.f.cyc) }
        | .inr l => k.modM fun m => { m with
            sl := m.sl.write (16384 * l) bs
            slP := BitVec.ofNat 8 (((List.range 8).map fun h =>
              if h / 2 = l then (if bad (8192 * (h % 2)) 8192 then 2 ^ h else 0) else bit (m.slP.getLsbD h) * 2 ^ h).sum) }
      bankLoadFrom s c xs (a + n)

/-- The countdown of every selected bank is zero (R141). -/
def banksLanded (k : Core) (b : W64) : Bool :=
  (List.finRange 16).all fun i => !b.getLsbD i.val || decide (k.mx.bankDue[i] ≤ k.f.cyc)

/-- The bytes that an operation of R139 reads or writes in memory: how, where, how many. -/
def supRange (t : AluTag) (a b : W64) : Acc × Nat × Nat :=
  let items := ((bankItems b).map fun x => match x with
    | .inl _ => 4096
    | .inr _ => 16384).sum
  match t with
  | .cwtWr => (.read, b.toNat, 32)
  | .mpsWr => (.read, b.toNat, 8)
  | .ctxSave => (.write, a.toNat, Config.areaBytes)
  | .ctxLoad => (.read, a.toNat, Config.areaBytes)
  | .bankSave => (.write, a.toNat, items)
  | _ => (.read, a.toNat, items)

/-- An operation of R139 may act: the core's earlier accesses are performed (R272), no acquire stands before it (R275 case 11), its pages
are not locked (R410), and the banks of a bank.save are landed (R141). -/
def State.supReady (s : State) (c : CoreId) (seq : Nat) (t : AluTag) (a b : W64) : Bool :=
  let k := s.core c
  let (acc, va, n) := supRange t a b
  !((k.q.ld ++ k.q.st ++ k.q.at_).any fun e => !e.done && decide (e.seq < seq))
  && !s.walled c seq && !s.lateVa c acc 16 va n && (t != .bankSave || banksLanded k b)

/-- The effect of an operation of R139, with the fault that ended it (R139, R141, R354). cwt.wr and mps.wr change their word once
the whole operand is read. -/
def State.supAct (s : State) (c : CoreId) (ipc : W64) (t : AluTag) (a b : W64) : State × Option Trap :=
  let (acc, va, n) := supRange t a b
  let s := s.noteVa c ipc acc va n
  match t with
  | .cwtWr =>
    match s.readVa c .read 2 va n with
    | .error t => (s, some t)
    | .ok bs => (s.modCore c fun k => k.modM fun m => { m with
        cwt := m.cwt.set (a.toNat % 512) (BitVec.ofNat 256 (natOf bs)), cwtP := setDel m.cwtP (a.toNat % 512) }, none)
  | .mpsWr =>
    match s.readVa c .read 2 va n with
    | .error t => (s, some t)
    | .ok bs =>
      let w := BitVec.ofNat 64 (natOf bs)
      (s.modCore c fun k => k.modMx fun m =>
        if a.getLsbD 12 then { m with sent := m.sent.set (a.toNat % 256) w, sentP := setDel m.sentP (a.toNat % 256) }
        else { m with smic := m.smic.set (a.toNat % 2048) w, smicP := setDel m.smicP (a.toNat % 2048) }, none)
  | .ctxSave =>
    match s.readVa c .read 2 (va + 0xA0) 8 with
    | .error t => (s, some t)
    | .ok rs =>
      let stat := BitVec.ofNat 64 (natOf rs) ||| BitVec.twoPow 64 42
      s.putParts c ((s.core c).bulkParts.map (fun p => (va + p.1, p.2)) ++ [(va + 0xA0, wordBytes stat)])
  | .ctxLoad => s.ctxLoadNow c va
  | .bankSave => bankSaveFrom s c (bankItems b) va
  | _ => bankLoadFrom s c (bankItems b) va

/-- FMASK_RD (R142). -/
def execFmaskRd (o : AluOp) (s : State) : Host.Outcome State Fault Refusal :=
  sOut .fmaskRd o (fun _ => ⟨(((s.fn s.cur).map Fn.mask).getD 0).setWidth 64, 0⟩) s

/-- FMASK_WR (R142): the mask changes at the end of the cycle, for every later boundary of a core of the function; it is a locked
item (R395). -/
def execFmaskWr (o : AluOp) (s : State) : Host.Outcome State Fault Refusal :=
  supStep .fmaskWr o (fun a b s => supDone .fmaskWr o (s.modMe fun k =>
    k.push { k.blank 0 0 (k.body (.alu .fmaskWr o)) none with dest := .fmask (a.setWidth 3).toFin, val := b.setWidth 1024 })) s

end Sys2Proof.Machine
end

