-- ==== Sys2Proof/Machine/Vector.lean ====
section
/-! DEFINITION. The operations of the VA and VB slots (R149 to R169). -/

namespace Sys2Proof.Machine
open Sys2Proof

/-- The latch group of a vector slot (R23) and its place in the order of R20. -/
def vUnit (o : AluOp) : Fin 4 := if o.unit = .vb then 2 else 1

/-- A vector operation's result, waiting for the end of cycle t + L − 1: W/8 byte lanes under the guard, the W computed
bits to the latch (R16, R18, R24). -/
def Core.vWrite (k : Core) (t : AluTag) (o : AluOp) (r : VOut) : Core :=
  let u := vUnit o
  let b : W1024 := BitVec.ofNat 1024 (r.bits % 2 ^ vecBits o.w)
  k.push { k.blank u.val u.val (k.body (.alu t o)) o.gd.arr with
    due := k.f.cyc + vLatency t o - 1
    dest := if o.nowb then .none else .v (physReg k.w.rb o.d).toFin
    val := b
    mask := lanes (vecBits o.w / 8) &&& k.guardVal o.gd
    shift := some u
    latch := b
    flags := r.flags }

/-- A vector compare's result: guard bits of the lanes computed, under the guard; byte masks to the latch (R153). -/
def Core.vgWrite (k : Core) (t : AluTag) (o : AluOp) (g : W128) : Core :=
  let u := vUnit o
  k.push { k.blank u.val u.val (k.body (.alu t o)) o.gd.arr with
    due := k.f.cyc + vLatency t o - 1
    dest := if o.nowb then .none else .g (physGuard k.w.rb (o.d.setWidth 4)).toFin
    val := g.setWidth 1024
    mask := lanes (vecBits o.w / 8) &&& k.guardVal o.gd
    shift := some u
    latch := guardBytes g }

/-- A vector operation whose result goes to a vector register. -/
def vStep (t : AluTag) (o : AluOp) (f : Core → VOut) (s : State) : Host.Outcome State Fault Refusal :=
  slotStep (.alu t o) (fun s => s.modMe fun k => k.vWrite t o (f k)) s

/-- A vector operation whose result goes to a guard. -/
def vgStep (t : AluTag) (o : AluOp) (f : Core → W128) (s : State) : Host.Outcome State Fault Refusal :=
  slotStep (.alu t o) (fun s => s.modMe fun k => k.vgWrite t o (f k)) s

/-- VADD (R150). -/
def execVadd (o : AluOp) (s : State) : Host.Outcome State Fault Refusal := vStep .vadd o (fun k => k.vNum .vadd o fun a b _ => a.add b) s
/-- VSUB (R150). -/
def execVsub (o : AluOp) (s : State) : Host.Outcome State Fault Refusal := vStep .vsub o (fun k => k.vNum .vsub o fun a b _ => a.sub b) s
/-- VMUL (R150). -/
def execVmul (o : AluOp) (s : State) : Host.Outcome State Fault Refusal := vStep .vmul o (fun k => k.vNum .vmul o fun a b _ => a.mul b) s
/-- VMULH (R150). -/
def execVmulh (o : AluOp) (s : State) : Host.Outcome State Fault Refusal :=
  vStep .vmulh o (fun k => k.vInt .vmulh o (mulhExact o.cw.fd)) s
/-- VMIN (R151). -/
def execVmin (o : AluOp) (s : State) : Host.Outcome State Fault Refusal := vStep .vmin o (fun k => k.vNum .vmin o fun a b _ => a.min2 b) s
/-- VMAX (R151). -/
def execVmax (o : AluOp) (s : State) : Host.Outcome State Fault Refusal := vStep .vmax o (fun k => k.vNum .vmax o fun a b _ => a.max2 b) s
/-- VMOV (R150): bit patterns. -/
def execVmov (o : AluOp) (s : State) : Host.Outcome State Fault Refusal := vStep .vmov o (fun k => k.vPat .vmov o fun _ a _ => a) s
/-- VAND (R150). -/
def execVand (o : AluOp) (s : State) : Host.Outcome State Fault Refusal :=
  vStep .vand o (fun k => k.vInt .vand o (bitwiseExact o.cw.fd (· &&& ·))) s
/-- VOR (R150). -/
def execVor (o : AluOp) (s : State) : Host.Outcome State Fault Refusal :=
  vStep .vor o (fun k => k.vInt .vor o (bitwiseExact o.cw.fd (· ||| ·))) s
/-- VXOR (R150). -/
def execVxor (o : AluOp) (s : State) : Host.Outcome State Fault Refusal :=
  vStep .vxor o (fun k => k.vInt .vxor o (bitwiseExact o.cw.fd (· ^^^ ·))) s
/-- VANDN (R150). -/
def execVandn (o : AluOp) (s : State) : Host.Outcome State Fault Refusal :=
  vStep .vandn o (fun k => k.vInt .vandn o (bitwiseExact o.cw.fd (andNot o.cw.fd.width))) s
/-- VSHL (R150). -/
def execVshl (o : AluOp) (s : State) : Host.Outcome State Fault Refusal := vStep .vshl o (fun k => k.vInt .vshl o shlExact) s
/-- VSHR (R150). -/
def execVshr (o : AluOp) (s : State) : Host.Outcome State Fault Refusal := vStep .vshr o (fun k => k.vInt .vshr o shrExact) s
/-- VSEL (R152). -/
def execVsel (o : AluOp) (s : State) : Host.Outcome State Fault Refusal := vStep .vsel o (fun k => k.vSelect o) s
/-- VFMA (R150). -/
def execVfma (o : AluOp) (s : State) : Host.Outcome State Fault Refusal :=
  vStep .vfma o (fun k => k.vNum .vfma o fun a b c => (a.mul b).add c) s
/-- VFMS (R150). -/
def execVfms (o : AluOp) (s : State) : Host.Outcome State Fault Refusal :=
  vStep .vfms o (fun k => k.vNum .vfms o fun a b c => (a.mul b).sub c) s
/-- VCLZ (R150). -/
def execVclz (o : AluOp) (s : State) : Host.Outcome State Fault Refusal :=
  vStep .vclz o (fun k => k.vInt .vclz o fun a _ => clzExact o.cw.fa a) s
/-- VPOPC (R150). -/
def execVpopc (o : AluOp) (s : State) : Host.Outcome State Fault Refusal :=
  vStep .vpopc o (fun k => k.vInt .vpopc o fun a _ => popcExact o.cw.fa a) s
/-- VCVT (R159). -/
def execVcvt (o : AluOp) (s : State) : Host.Outcome State Fault Refusal := vStep .vcvt o (fun k => k.vConvert o) s
/-- VCMP_EQ (R153). -/
def execVcmpEq (o : AluOp) (s : State) : Host.Outcome State Fault Refusal := vgStep .vcmpEq o (fun k => k.vGuard .vcmpEq o fun a b => a.eqv b) s
/-- VCMP_NE (R153). -/
def execVcmpNe (o : AluOp) (s : State) : Host.Outcome State Fault Refusal := vgStep .vcmpNe o (fun k => k.vGuard .vcmpNe o fun a b => !a.eqv b) s
/-- VCMP_LT (R153). -/
def execVcmpLt (o : AluOp) (s : State) : Host.Outcome State Fault Refusal := vgStep .vcmpLt o (fun k => k.vGuard .vcmpLt o fun a b => a.lt b) s
/-- VCMP_LE (R153). -/
def execVcmpLe (o : AluOp) (s : State) : Host.Outcome State Fault Refusal := vgStep .vcmpLe o (fun k => k.vGuard .vcmpLe o fun a b => a.lt b || a.eqv b) s
/-- VCMP_UN (R153): either operand is NaN. -/
def execVcmpUn (o : AluOp) (s : State) : Host.Outcome State Fault Refusal :=
  vgStep .vcmpUn o (fun k => k.vGuard .vcmpUn o fun a b => a.isNan || b.isNan) s
/-- VCMP_PHB (R167). -/
def execVcmpPhb (o : AluOp) (s : State) : Host.Outcome State Fault Refusal := vgStep .vcmpPhb o (fun k => k.vGuardPh .vcmpPhb o .before) s
/-- VCMP_PHO (R167). -/
def execVcmpPho (o : AluOp) (s : State) : Host.Outcome State Fault Refusal := vgStep .vcmpPho o (fun k => k.vGuardPh .vcmpPho o .opposite) s
/-- VPERM (R154). -/
def execVperm (o : AluOp) (s : State) : Host.Outcome State Fault Refusal := vStep .vperm o (fun k => k.vPermute o) s
/-- VBCAST (R155). -/
def execVbcast (o : AluOp) (s : State) : Host.Outcome State Fault Refusal := vStep .vbcast o (fun k => k.vBroadcast o) s

/-- VEXT (R156): one element into a scalar register. -/
def execVext (o : AluOp) (s : State) : Host.Outcome State Fault Refusal :=
  slotStep (.alu .vext o) (fun s => s.modMe fun k =>
    let u := vUnit o
    let v := k.vExtract o
    k.push { k.blank u.val u.val (k.body (.alu .vext o)) o.gd.arr with
      due := k.f.cyc + vLatency .vext o - 1
      dest := if o.nowb || !(k.guardVal o.gd).getLsbD 0 then .none else .s (physReg k.w.rb o.d).toFin false
      val := v.setWidth 1024
      shift := some u
      latch := v.setWidth 1024 }) s

/-- The bank row that vrow and vwrow name (R160, R161). -/
def rowIndex (b : Nat) (r : W64) : Nat := 32 * (b % 16) + r.toNat % 32

/-- VROW (R160): a row of a bank, whole or drained to bf16. -/
def execVrow (o : AluOp) (s : State) : Host.Outcome State Fault Refusal :=
  slotStep (.alu .vrow o) (fun s => s.modMe fun k =>
    let b := match o.a with
      | .reg n => n.toNat
      | _ => 0
    let i := rowIndex b (k.scalarSrc o .none o.b)
    let r := rowOut o (k.m.bank.get i)
    let k' := k.vWrite .vrow o r
    if k.m.bankP.contains i then
      k'.modQ fun q => { q with pend := q.pend.dropLast ++ (q.pend.getLast?.map fun p => { p with poison := true }).toList }
    else k') s

/-- VWROW (R161, R162): W bits into a row of a bank at the end of cycle t + 1; the bank is marked dirty. -/
def execVwrow (o : AluOp) (s : State) : Host.Outcome State Fault Refusal :=
  slotStep (.alu .vwrow o) (fun s => s.modMe fun k =>
    let u := vUnit o
    let v : W1024 := BitVec.ofNat 1024 (k.vWriteRow o % 2 ^ vecBits o.w)
    let k := k.modW fun w => { w with aown := w.aown ||| BitVec.twoPow 64 (16 + o.d.toNat % 16) }
    k.push { k.blank u.val u.val (k.body (.alu .vwrow o)) o.gd.arr with
      due := k.f.cyc + 1
      dest := if o.nowb then .none else .bank (o.d.setWidth 4).toFin ((k.scalarSrc o .none o.a).setWidth 5).toFin
      val := v
      mask := lanes (vecBits o.w / 8) &&& k.guardVal o.gd
      shift := some u
      latch := v }) s

/-- VSCACC (R164). -/
def execVscacc (o : AluOp) (s : State) : Host.Outcome State Fault Refusal := vStep .vscacc o (fun k => k.vScaleAcc o) s
/-- VREDSUM (R157, R158). -/
def execVredsum (o : AluOp) (s : State) : Host.Outcome State Fault Refusal :=
  vStep .vredsum o (fun k => k.vReduce .vredsum o (sumOf o.cw.fa)) s
/-- VREDMAX (R157, R158). -/
def execVredmax (o : AluOp) (s : State) : Host.Outcome State Fault Refusal :=
  vStep .vredmax o (fun k => k.vReduce .vredmax o (extreme X.max2)) s
/-- VREDMIN (R157, R158). -/
def execVredmin (o : AluOp) (s : State) : Host.Outcome State Fault Refusal :=
  vStep .vredmin o (fun k => k.vReduce .vredmin o (extreme X.min2)) s
/-- VRCP (R165). -/
def execVrcp (o : AluOp) (s : State) : Host.Outcome State Fault Refusal := vStep .vrcp o (fun k => k.vSpecial .vrcp o rcpX) s
/-- VRSQRT (R165). -/
def execVrsqrt (o : AluOp) (s : State) : Host.Outcome State Fault Refusal := vStep .vrsqrt o (fun k => k.vSpecial .vrsqrt o rsqrtX) s
/-- VSQRT (R165). -/
def execVsqrt (o : AluOp) (s : State) : Host.Outcome State Fault Refusal := vStep .vsqrt o (fun k => k.vSpecial .vsqrt o sqrtX) s
/-- VEXP2 (R165). -/
def execVexp2 (o : AluOp) (s : State) : Host.Outcome State Fault Refusal := vStep .vexp2 o (fun k => k.vSpecial .vexp2 o exp2X) s
/-- VLOG2 (R165). -/
def execVlog2 (o : AluOp) (s : State) : Host.Outcome State Fault Refusal := vStep .vlog2 o (fun k => k.vSpecial .vlog2 o log2X) s
/-- VSIN (R166). -/
def execVsin (o : AluOp) (s : State) : Host.Outcome State Fault Refusal := vStep .vsin o (fun k => k.vSincos .vsin o true) s
/-- VCOS (R166). -/
def execVcos (o : AluOp) (s : State) : Host.Outcome State Fault Refusal := vStep .vcos o (fun k => k.vSincos .vcos o false) s
/-- VPHMUL (R112, R167). -/
def execVphmul (o : AluOp) (s : State) : Host.Outcome State Fault Refusal :=
  vStep .vphmul o (fun k => k.vPat .vphmul o fun _ a b => phComb false o.cw.fa o.cw.fb o.cw.fd a b) s
/-- VPHSUB (R112, R167). -/
def execVphsub (o : AluOp) (s : State) : Host.Outcome State Fault Refusal :=
  vStep .vphsub o (fun k => k.vPat .vphsub o fun _ a b => phComb true o.cw.fa o.cw.fb o.cw.fd a b) s
/-- VPHACC (R168). -/
def execVphacc (o : AluOp) (s : State) : Host.Outcome State Fault Refusal := vStep .vphacc o (fun k => k.vPhAcc o) s
/-- VPHRES (R169). -/
def execVphres (o : AluOp) (s : State) : Host.Outcome State Fault Refusal := vStep .vphres o (fun k => k.vPhRes o) s

end Sys2Proof.Machine
end

