-- ==== Sys2Proof/Machine/Matrix.lean ====
section
/-! DEFINITION. Matrix calls, micro-words and the steps of the array (R170 to R197). -/

namespace Sys2Proof.Machine
open Sys2Proof

/-! ### Operands -/

namespace State

/-- The bytes of some pieces: a poisoned one is a fault (R406). -/
def getSpots (s : State) (c : CoreId) : List Spot → Get
  | [] => .ok [] false
  | .const bs :: xs =>
    match s.getSpots c xs with
    | .ok r p => .ok (bs ++ r) p
    | g => g
  | .probe va n :: xs => if s.lateVa c .read 3 va n then .late else s.getSpots c xs
  | .at_ sp a n :: xs =>
    match s.get c (some 3) sp a n with
    | .late => .late
    | .bad t => .bad t
    | .ok _ true => .bad (trapAt .poison a)
    | .ok bs false =>
      match s.getSpots c xs with
      | .ok r p => .ok (bs ++ r) p
      | g => g

/-- Bytes of a piece. -/
def spotLen : Spot → Nat
  | .const bs => bs.length
  | .at_ _ _ n => n
  | .probe _ _ => 0

/-- Pieces cut into the units of an operand fetch, the aligned 64-byte blocks (R270). -/
def cutSpots (xs : List Spot) : List Spot :=
  xs.flatMap fun x => match x with
    | .at_ sp a n => (Dev.unitsOf 64 a n).map fun u => .at_ sp (max a (64 * u)) (min (a + n) (64 * u + 64) - max a (64 * u))
    | y => [y]

/-- The pieces behind the first n bytes. -/
def restSpots : List Spot → Nat → List Spot
  | [], _ => []
  | x :: xs, n => if n = 0 then x :: xs else restSpots xs (n - spotLen x)

/-- The first n pieces that hold bytes, with the probes that place them. -/
def takeSpots : List Spot → Nat → List Spot
  | [], _ => []
  | x :: xs, n => if spotLen x = 0 then x :: takeSpots xs n else match n with
    | 0 => []
    | n + 1 => x :: takeSpots xs n

/-- The waits on pages pending scrub that reading some pieces makes. -/
def noteSpots (s : State) (c : CoreId) (ipc : W64) (xs : List Spot) : State :=
  xs.foldl (fun (s : State) x => match x with
    | .at_ sp a n => s.noteRead c ipc sp a n
    | .probe va n => s.noteVa c ipc .read va n
    | .const _ => s) s

/-- The ticks that a weight-store row must still wait out, in each bank that it reaches (R186, R250). -/
def spotsWait (s : State) (xs : List Spot) : Nat :=
  xs.foldl (fun w x => match x with
    | .at_ .ws a n => max w (max (s.d.wsWait a) (s.d.wsWait (a + n - 1)))
    | _ => w) 0

end State

/-! ### Calls -/

/-- MX_CALL (R170, R171). -/
def execMxCall (o : MxOp) (s : State) : Host.Outcome State Fault Refusal :=
  slotStep (.mx o) (fun s =>
    let f6 := !(((s.fn s.cur).map Fn.mask).getD 0).getLsbD 6
    s.modMe fun k =>
      let ent := routineOf (k.mx.ent.get o.rt.toNat)
      let par := match o.ovr with
        | some (i, v) => k.r.mp.set i.toFin (v.setWidth 64)
        | none => k.r.mp
      let w := k.w.mrow.toNat
      let pending := k.w.mrow.getLsbD 40
      let banks : BitVec 16 := if o.lm = .loadOnly then 0 else BitVec.ofNat 16 (((List.range 16).map fun b =>
        if ent.bmask.getLsbD b then 2 ^ ((o.rbk.toNat + b) % 16) else 0).sum)
      let m : MxCall := {
        seq := k.f.seq + 3, ipc := k.f.ipc, body := k.body (.mx o), ent := ent, sl := o.sl, lm := o.lm, rbk := o.rbk
        acc := o.acc, par := par
        comp := if pending then field w 11 1 == 1 else o.lm == .use
        upc := if pending then field w 0 11 else if o.lm = .use then ent.cpc else ent.lpc
        row := if pending then field w 12 8 else 0
        touch := if pending then BitVec.ofNat 16 (field w 24 16) else 0
        rows := [], part := [], elt := 0, t0 := none, rowFault := none, wait := 0, fault := none, fin := false
        landDue := if banks = 0 then k.f.cyc else k.f.cyc + max o.land.toNat 1 - 1
        banks := banks, arr := o.gd.arr, hnd := k.inHandler, feat6 := f6 }
      let k := k.modMx fun x => { x with
        q := x.q ++ [m]
        free := if x.q = [] then max x.free (x.acyc + 1) else x.free
        bankDue := Vector.ofFn fun b : Fin 16 =>
          if banks.getLsbD b then max x.bankDue[b] (k.f.cyc + o.land.toNat) else x.bankDue[b] }
      k.modW fun w => { w with
        mrow := w.mrow &&& ~~~BitVec.twoPow 64 40
        aown := w.aown ||| (banks.setWidth 64 <<< 16)
          ||| (if o.lm = .use then 0 else BitVec.twoPow 64 (32 + o.sl.toNat)) }) s

/-! ### Micro-words -/

/-- Changes the call on the array. -/
def Core.modHead (k : Core) (f : MxCall → MxCall) : Core :=
  k.modMx fun x => { x with q := match x.q with
    | m :: ms => f m :: ms
    | [] => [] }

/-- The call on the array that stands at a micro-word: it is not at its end and has met no fault, or the fault lies behind rows
of it that are fetched (R195). -/
def Core.headAt (k : Core) (u : Micro) : Option MxCall :=
  match k.mx.q with
  | m :: _ => if m.fault.isNone && (m.rowFault.isNone || m.rows != []) && !m.fin && decodeMicro (k.mx.mic.get m.upc) == some u then some m else none
  | [] => none

/-- One step of a micro-word, in an array cycle in which the array can take it (R180, R193). -/
def microStep (c : CoreId) (u : Micro) (ahead : Nat) (name : String) (f : State → MxCall → Option State) (s : State) :
    Host.Outcome State Fault Refusal :=
  let k := s.core c
  match k.headAt u with
  | some m =>
    if k.active && State.arrayTime k && decide (k.mx.free ≤ k.mx.acyc + ahead) then
      match f s m with
      | some s' => .next s'
      | none => notEnabled name
    else notEnabled name
  | none => notEnabled name

/-- The array is taken for one cycle. -/
def Core.spend (k : Core) : Core := k.modMx fun x => { x with free := x.acyc + 1 }

/-- The call goes on at another micro-word. -/
def MxCall.goto (m : MxCall) (i : Nat) : MxCall := { m with upc := i, row := 0, rows := [], part := [], elt := 0, t0 := none, wait := 0 }

/-- Stores a row of B into a latch (R181). -/
def Core.putLatch (k : Core) (l : Nat) (h : Bool) (o : Operand) (r : Nat) (bs : List Byte) : Core :=
  k.modM fun m => { m with sl := m.sl.write (16384 * l + 8192 * bit h + r * o.bytes) bs }

/-- Rows of a latch load from row r on. -/
def Core.putRows (k : Core) (l : Nat) (h : Bool) (o : Operand) : Nat → List (BitVec 2048) → Core
  | _, [] => k
  | r, x :: xs => (k.putLatch l h o r (bytesOf o.bytes x.toNat)).putRows l h o (r + 1) xs

/-- MU_LAT (R181, R189): the rows of half H, once the load pipes hold them all, in one array cycle; where a row faults, those
before it. -/
def execMuLat (c : CoreId) (u : MuLat) (s : State) : Host.Outcome State Fault Refusal :=
  microStep c (.lat u) 0 "MU_LAT" (fun s m =>
    let o := latOperand u
    let put := fun (k : Core) => k.putRows m.sl.toNat u.h o m.row m.rows
    if m.rowFault.isSome then
      some (s.modCore c fun k => (put k).modHead fun m => { m with row := m.row + m.rows.length, rows := [] })
    else if m.row + m.rows.length < o.rows then none
    else some (s.modCore c fun k =>
      let k := if u.kind ≠ 2 ∧ m.row = 0 then
          k.modM fun x => { x with slP := x.slP &&& ~~~BitVec.twoPow 8 (2 * m.sl.toNat + bit u.h) } else k
      ((put k).modHead fun m => m.goto (m.upc + 1)).spend)) s

/-- Bank offsets that a block operation writes (R190). -/
def mmaOffsets (k : MmaKind) (u : MuMma) : List Nat :=
  (List.range (if k = .bf16q then 1 else 4)).map fun o => (u.bo.toNat + o) % 16

/-- Completion depth (R176). -/
def mmaDepth (k : MmaKind) : Nat := if k = .ph then 12 else 8

/-- The parts of result row i: the offset of its bank, the row in the bank, its columns (R190). -/
def mmaParts (k : MmaKind) (i : Nat) : List (Nat × Nat × List Nat) :=
  match k with
  | .bf16q => [(0, i, List.range 32)]
  | .ph => (List.range 4).map fun q => (q, i, upFrom (8 * q) 8)
  | _ => (List.range 2).map fun q => (2 * (i / 32) + q, i % 32, upFrom (32 * q) 32)

/-- Element (i, j) from A's row, B's column and the prior bank value, if it is accumulated (R191). -/
def mmaElt (k : MmaKind) (u : MuMma) (prods : List (Nat × Nat)) (prior : Option Nat) : Nat :=
  match k with
  | .e4m3 => fp8Block prods prior
  | .i8 => int8Block (if u.sga then .i8 else .n8) (if u.sgb then .i8 else .n8) prods prior
  | .bf16 => bf16Blocks 2 (prior.getD 0) prods
  | .bf16q => bf16Blocks 1 (prior.getD 0) prods
  | .ph => phStep (prior.getD 0) prods

/-- Bits of an A or B element of an operation. -/
def mmaWidth (k : MmaKind) : Nat :=
  match k with
  | .e4m3 | .i8 => 8
  | _ => 16

/-- Bytes of one row of B (R185). -/
def mmaRowB (k : MmaKind) : Nat := if k = .bf16 then 128 else 64

/-- Bits of a result element (R185). -/
def mmaOut (k : MmaKind) : Nat := if k = .ph then 128 else 32

/-- Whether an element of a bank offset is accumulated (R191). -/
def mmaAcc (m : MxCall) (u : MuMma) (off : Nat) : Bool :=
  match u.am with
  | 0 => m.acc
  | 1 => false
  | 2 => true
  | _ => m.touch.getLsbD off || m.acc

/-- Row i of a block operation: its bank rows are written (R190, R191). -/
def mmaRow (k : Core) (m : MxCall) (kind : MmaKind) (u : MuMma) (i : Nat) (arow : Nat) : Core :=
  let w := mmaWidth kind
  let base := 16384 * m.sl.toNat + 8192 * bit u.h
  let mine : Memory := k.m.sl.filter fun e => decide (base ≤ e.1) && decide (e.1 < base + 8192)
  let half := (Sparse.read mine base 8192).toArray
  let nk := (mmaOperand u kind).bytes * 8 / w
  let bElt := fun (kk j : Nat) =>
    let p := kk * mmaRowB kind + j * (w / 8)
    if w = 8 then (half.getD p 0).toNat else (half.getD p 0).toNat + 256 * (half.getD (p + 1) 0).toNat
  let lp := k.m.slP.getLsbD (2 * m.sl.toNat + bit u.h)
  (mmaParts kind i).foldl (fun (k : Core) part =>
    let (o, row, js) := part
    let off := (u.bo.toNat + o) % 16
    let bank := (m.rbk.toNat + off) % 16
    let acc := mmaAcc m u off
    let old := (k.m.bank.get (32 * bank + row)).toNat
    let vals := js.map fun j =>
      mmaElt kind u ((List.range nk).map fun kk => (field arow (w * kk) w, bElt kk j))
        (if acc then some (field old (mmaOut kind * (j - js.headD 0)) (mmaOut kind)) else none)
    let bad := lp || (acc && k.m.bankP.contains (32 * bank + row))
    (k.writeRow (Fin.ofNat 16 bank) (Fin.ofNat 32 row) (BitVec.allOnes 128)
      (BitVec.ofNat 1024 (packElts (mmaOut kind) vals))).modM fun x => { x with
        bankP := setPut x.bankP (32 * bank + row) bad }) k

/-- A vwrow issued before a call, or beside it, is there for the rows that the call's micro-words touch, though its cycle may not have
ended, and also where a handler's delivery has put it into the snapshot latch bank (R163, R350). -/
def Core.seeRows (k : Core) (m : MxCall) (rows : List Nat) : Core :=
  let sees := fun (p : Pend) => decide (p.seq < m.seq) && match p.dest with
    | .bank b r => rows.contains (32 * b.val + r.val)
    | _ => false
  let gone := fun (p : Pend) => if sees p then { p with dest := .none } else p
  (((k.q.slb ++ k.q.pend).filter sees).foldl (fun k p => k.place p.dest p.val p.mask p.poison) k).modQ fun q => { q with
    pend := q.pend.map gone, slb := q.slb.map gone }

/-- The bank rows of row i of a block operation. -/
def mmaRows (k : MmaKind) (m : MxCall) (u : MuMma) (i : Nat) : List Nat :=
  (mmaParts k i).map fun p => 32 * ((m.rbk.toNat + (u.bo.toNat + p.1) % 16) % 16) + p.2.1

/-- One row of a block operation in one array cycle; the last one begins its completion (R182, R191, R193). -/
def mmaStep (kind : MmaKind) (name : String) (c : CoreId) (u : MuMma) (s : State) : Host.Outcome State Fault Refusal :=
  microStep c (.mma kind u) 0 name (fun s m =>
    match m.rows with
    | [] => none
    | a :: rest => some (s.modCore c fun k =>
        let k := mmaRow (k.seeRows m (mmaRows kind m u m.row)) m kind u m.row a.toNat
        let k := if m.row + 1 < (mmaOperand u kind).rows then
            k.modHead fun m => { m with row := m.row + 1, rows := rest }
          else
            let offs := mmaOffsets kind u
            let bits := fun (f : Nat → Nat) => BitVec.ofNat 16 ((offs.map fun o => 2 ^ f o).sum)
            (k.modHead fun m => { (m.goto (m.upc + 1)) with touch := m.touch ||| bits id }).modMx fun x => { x with
              comp := x.comp ++ [⟨x.acyc + mmaDepth kind, bits fun o => (m.rbk.toNat + o) % 16, m.seq⟩] }
        k.spend)) s

/-- MU_MMA_E4M3 (R182, R102). -/
def execMuMmaE4m3 (c : CoreId) (u : MuMma) (s : State) : Host.Outcome State Fault Refusal := mmaStep .e4m3 "MU_MMA_E4M3" c u s
/-- MU_MMA_BF16 (R182, R104). -/
def execMuMmaBf16 (c : CoreId) (u : MuMma) (s : State) : Host.Outcome State Fault Refusal := mmaStep .bf16 "MU_MMA_BF16" c u s
/-- MU_MMA_BF16Q (R182, R104). -/
def execMuMmaBf16q (c : CoreId) (u : MuMma) (s : State) : Host.Outcome State Fault Refusal := mmaStep .bf16q "MU_MMA_BF16Q" c u s
/-- MU_MMA_I8 (R182, R103). -/
def execMuMmaI8 (c : CoreId) (u : MuMma) (s : State) : Host.Outcome State Fault Refusal := mmaStep .i8 "MU_MMA_I8" c u s
/-- MU_MMA_PH (R182, R115). -/
def execMuMmaPh (c : CoreId) (u : MuMma) (s : State) : Host.Outcome State Fault Refusal := mmaStep .ph "MU_MMA_PH" c u s

/-- The bank row that holds half h of row i of a drain, its 32 elements (R190, R192); 32 rows have one half. -/
def drainAt (m : MxCall) (u : MuDrain) (i h : Nat) : Nat :=
  if u.q then 32 * ((m.rbk.toNat + u.bo.toNat) % 16) + i else 32 * ((m.rbk.toNat + u.bo.toNat + 2 * (i / 32) + h) % 16) + i % 32

/-- Bytes of a row of a drain. -/
def drainLen (u : MuDrain) : Nat := (if u.q then 32 else 64) * (u.fd.width / 8)

/-- Half h of row i of a drain as the bytes it stores (R190, R192). -/
def drainHalf (k : Core) (m : MxCall) (u : MuDrain) (i h : Nat) : List Byte :=
  let row := (k.m.bank.get (drainAt m u i h)).toNat
  (List.range 32).flatMap fun j => bytesOf (u.fd.width / 8) (drainTo u.fd (field row (32 * j) 32))

/-- The fault that a row of a drain meets before it is stored: alignment (R192), the open region (R240). DESIGN CHOICE: they come before
the bounds of the row, on whose order R192 is silent (log 49). -/
def drainCheck (s : State) (c : CoreId) (m : MxCall) (u : MuDrain) (a n : Nat) : Option Trap :=
  let k := s.core c
  let al := min 64 n
  if (m.p u.ap).toNat % al ≠ 0 then some ⟨.align, 0, m.p u.ap⟩
  else if (m.p u.sp).toNat % al ≠ 0 then some ⟨.align, 0, Config.freeWord s.fresh 0⟩
  else if k.rg.opened && !((ownRange c u.space (BitVec.ofNat 64 a)).map fun off => k.inWriteSet off n).getD false then
    some (trapAt .protection a)
  else none

/-- The fault of a row of a drain, found before its first element is stored. -/
def drainFault (s : State) (c : CoreId) (m : MxCall) (u : MuDrain) (a : Nat) : Option Trap :=
  if m.elt ≠ 0 then none
  else
    match drainCheck s c m u a (drainLen u) with
    | some t => some t
    | none => match s.put c (some 3) m.ipc u.space a (zeros (drainLen u)) false with
      | .bad t => some t
      | _ => none

/-- An element of a row of a drain is stored: the row goes on, or the next begins. 64 rows take 16 array cycles, 32 rows 4. -/
def Core.drained (k : Core) (m : MxCall) (u : MuDrain) : Core :=
  if m.elt + 1 < (if u.q then 32 else 64) then k.modHead fun m => { m with elt := m.elt + 1 }
  else
    let last := decide (m.row + 1 = if u.q then 32 else 64)
    let k := k.modHead fun m => if last then m.goto (m.upc + 1) else { m with row := m.row + 1, elt := 0 }
    if last || (m.row + 1) % (if u.q then 8 else 4) == 0 then k.spend else k

/-- MU_DRAIN (R183, R192): the next element of the row in progress, a unit of its own (R270, R271). -/
def execMuDrain (c : CoreId) (u : MuDrain) (s : State) : Host.Outcome State Fault Refusal :=
  microStep c (.drain u) 0 "MU_DRAIN" (fun s m =>
    let w := u.fd.width / 8
    let h := m.elt / 32
    let ix := drainAt m u m.row h
    let k := (s.core c).seeRows m [ix]
    let bs := ((drainHalf k m u m.row h).drop (w * (m.elt % 32))).take w
    let a := (m.rowAddr u.ap u.sp m.row).toNat
    let fault := fun (t : Trap) => some (s.modCore c fun k => k.modHead fun m => { m with rowFault := some t })
    let kinds := if u.space = .glob then s.kindsIn c 3 (a + w * m.elt) bs.length else []
    if !s.ordered c 5 m.seq kinds false false then none
    else
      match drainFault s c m u a with
      | some t => fault t
      | none =>
        match s.put c (some 3) m.ipc u.space (a + w * m.elt) bs (k.m.bankP.contains ix) with
        | .late => none
        | .bad t => fault t
        | .ok s => some (s.modCore c fun k => k.drained m u)) s

/-- MU_ADV (R184). -/
def execMuAdv (c : CoreId) (u : MuAdv) (s : State) : Host.Outcome State Fault Refusal :=
  microStep c (.adv u) 0 "MU_ADV" (fun s m =>
    let v := match u.y with
      | some y => m.p y
      | none => u.imm.signExtend 64
    some (s.modCore c fun k => (k.modHead fun m => { (m.goto (m.upc + 1)) with
      par := m.par.set u.x.toFin (m.p u.x + v) }).spend)) s

/-- MU_LOOP (R184). -/
def execMuLoop (c : CoreId) (u : MuLoop) (s : State) : Host.Outcome State Fault Refusal :=
  microStep c (.loop u) 0 "MU_LOOP" (fun s m =>
    some (s.modCore c fun k => (k.modHead fun m =>
      if m.p u.x = 0 then m.goto (m.upc + 1)
      else { (m.goto u.t.toNat) with par := m.par.set u.x.toFin (m.p u.x - 1) }).spend)) s

/-- MU_END (R170, R184): the load part gives way to the compute part, or the call's last micro-word has finished. It takes
no array cycle. DESIGN CHOICE: so a call whose first micro-word is a mu.end, of no array cycle at all, ends in its issue cycle or in the
last array cycle of the call before it, where R180 starts a first micro-word in the cycle after (log 106). -/
def execMuEnd (c : CoreId) (s : State) : Host.Outcome State Fault Refusal :=
  microStep c .end_ 1 "MU_END" (fun s _ =>
    some (s.modCore c fun k => k.modHead fun m =>
      if !m.comp && m.lm == .loadUse then { (m.goto m.ent.cpc) with comp := true } else { m with fin := true })) s

/-! ### What the array makes of itself -/

/-- BLOCK_COMPLETE (R193): the banks of a block are complete; a freeze that waited for them ends with the frozen cycle. -/
def execBlockComplete (c : CoreId) (s : State) : Host.Outcome State Fault Refusal :=
  let k := s.core c
  match k.mx.comp.find? fun x => decide (x.due ≤ k.mx.acyc) with
  | some x =>
    let rest := k.modMx fun m => { m with comp := m.comp.erase x }
    if k.active && State.arrayTime k && !(k.f.frozen && State.arrayMust (k.modMx fun m => { m with comp := [], late := [] })) then
      if k.f.frozen then
        let s := s.setCore c { rest with
          f := { k.f with frz := k.f.frz + 1 }, mx := { rest.mx with acyc := rest.mx.acyc + 1 } }
        let s := if (s.core c).lateBanks.isEmpty then s.modD fun d => d.sample (clusOf c) 1 none [k.f.frz + 1] else s
        .next (s.thaw c)
      else .next (s.setCore c rest)
    else notEnabled "BLOCK_COMPLETE"
  | none => notEnabled "BLOCK_COMPLETE"

/-- MATRIX_CALL_COMPLETE (R172, R173): a call whose last micro-word has finished leaves the queue, and its arrival is made
when it is due. -/
def execMatrixCallComplete (c : CoreId) (s : State) : Host.Outcome State Fault Refusal :=
  let k := s.core c
  if !k.active || !State.arrayTime k then notEnabled "MATRIX_CALL_COMPLETE"
  else
    match k.mx.q with
    | m :: ms =>
      if m.fin then
        .next (s.modCore c fun k =>
          let k := k.modMx fun x => { x with q := ms }
          if m.arr.isNone then k
          else if State.arrivalDue k m then k.arrive m.seq m.arr
          else k.modMx fun x => { x with late := x.late ++ [m] })
      else
        match k.mx.late.find? (State.arrivalDue k) with
        | some l => .next (s.modCore c fun k => (k.modMx fun x => { x with late := x.late.erase l }).arrive l.seq l.arr)
        | none => notEnabled "MATRIX_CALL_COMPLETE"
    | [] =>
      match k.mx.late.find? (State.arrivalDue k) with
      | some l => .next (s.modCore c fun k => (k.modMx fun x => { x with late := x.late.erase l }).arrive l.seq l.arr)
      | none => notEnabled "MATRIX_CALL_COMPLETE"

/-- MATRIX_FAULT (R195): the array has reached the faulting row or micro-word; the call stops. -/
def execMatrixFault (c : CoreId) (s : State) : Host.Outcome State Fault Refusal :=
  let k := s.core c
  match k.mx.q with
  | m :: _ =>
    if k.active && State.arrayTime k && decide (k.mx.free ≤ k.mx.acyc) && m.fault.isNone && m.rowFault.isSome && m.rows == [] then
      .next (s.modCore c fun k => k.modHead fun m => { m with
        fault := m.rowFault.map fun t => { t with slot := 3 }, rowFault := none })
    else notEnabled "MATRIX_FAULT"
  | [] => notEnabled "MATRIX_FAULT"

/-- The pieces of a step of an operand's fetch: the next unit of its row (R271). -/
def nextSpots (m : MxCall) (xs : List Spot) : List Spot :=
  State.takeSpots (State.restSpots (State.cutSpots xs) m.part.length) 1

/-- Some bytes of the next row are there: the row is, once they are all its bytes. -/
def MxCall.fetch (m : MxCall) (o : Operand) (bs : List Byte) : MxCall :=
  let all := m.part ++ bs
  if all.length < o.bytes then { m with part := all }
  else { m with rows := m.rows ++ [BitVec.ofNat 2048 (natOf all)], part := [], t0 := none, wait := 0 }

/-- OPERAND_ROW_ARRIVAL (R38, R186, R193, R194): the load pipes fetch the next unit of the next row of the latch load or block
operation on the array (R270, R271), through freezes too. A row from the weight store reaches its bank after the tick in which its
fetch began (R251); one in a bank that is in refresh waits for the end of the window (R250). -/
def execOperandRowArrival (c : CoreId) (s : State) : Host.Outcome State Fault Refusal :=
  let k := s.core c
  let stop := notEnabled "OPERAND_ROW_ARRIVAL"
  match k.headWord.bind fun x => (Micro.fetched x.2).map fun o => (x.1, o) with
  | none => stop
  | some (m, o) =>
    let r := m.row + m.rows.length
    let head := fun (s : State) (f : MxCall → MxCall) => Host.Outcome.next (s.modCore c fun k => k.modHead f)
    let s' := if o.space = .handle ∧ m.feat6 ∧ (m.p o.sp).toNat < 4096 then s.noteHandle c m.ipc (m.p o.sp).toNat else s
    let bad := fun (t : Trap) => head s' fun m => { m with rowFault := some t, part := [] }
    if !k.active || decide (o.rows ≤ r) || decide (s.d.tick < m.wait) then stop
    else if o.space = .ws ∧ m.t0 = none then head s fun m => { m with t0 := some s.d.tick }
    else if o.space = .ws ∧ m.t0 = some s.d.tick then stop
    else
      match (s.rowSpots c m o r).map (nextSpots m) with
      | .error t => bad t
      | .ok xs =>
        let w := s.spotsWait xs
        if !s.ordered c 5 m.seq (s.spotKinds c xs) false false then stop
        else if 0 < w then head (s.modD fun d => d.sample (clusOf c) 5 none [w]) fun m => { m with wait := s.d.tick + w }
        else
          match s.getSpots c xs with
          | .late => stop
          | .bad t => bad t
          | .ok bs _ => head (s.noteSpots c m.ipc xs) fun m => m.fetch o bs

end Sys2Proof.Machine
end

