-- ==== Sys2Proof/Machine/MemOps.lean ====
section
/-! DEFINITION. The operations of the LD and ST slots and the steps of the load, store and atomic queues (R199 to R212, R240,
R286, R287). -/

namespace Sys2Proof.Machine
open Sys2Proof

/-! ### Issue -/

/-- Bytes of the spill RAM written at an offset; an 8-byte unit wholly written loses its poison (R35, R406). -/
def Core.writeSpill (k : Core) (off : Nat) (bs : List Byte) : Core :=
  k.modM fun m => { m with
    spill := m.spill.write off bs
    spillP := m.spillP.filter fun u => !(decide (off ≤ 8 * u) && decide (8 * u + 8 ≤ off + bs.length)) }

/-- The value a store writes (R205): W bits of its register. -/
def Core.storeData (k : Core) (o : MemOp) : W1024 :=
  if o.k then k.readV o.reg &&& BitVec.ofNat 1024 (2 ^ vecBits o.w - 1)
  else if o.w = 0 then (k.readS o.reg).setWidth 1024 else ((k.readS o.reg).setWidth 32).setWidth 1024

/-- A spill access (R35): a load delivers at the end of its issue cycle, a store is written there. -/
def Core.spillStep (k : Core) (t : MemTag) (o : MemOp) : Core :=
  let n := memBytes o
  let off := o.off.toNat
  let p := k.owed 3 (.mem t o) o.gd.arr
  if t.isLd then
    let v : W1024 := BitVec.ofNat 1024 (natOf (k.m.spill.read off n))
    k.push { p with
      dest := if o.nr then .none else if o.k then .v (physReg k.w.rb o.reg).toFin else k.destS o.reg (o.w == 1)
      val := v
      mask := if o.k then lanes n else BitVec.allOnes 128
      shift := some 3
      latch := v
      poison := k.m.spillP.any fun u => decide (8 * u < off + n) && decide (off < 8 * u + 8) }
  else
    let k := k.writeSpill off (bytesOf n (k.storeData o).toNat)
    if o.gd.arr.isSome then k.push p else k

/-- A load is never late: its queue is empty and its LAND is at least the bound of its space; weight-store loads come at most one
in four cycles, and 56 is enough where no read of this tick meets its bank's refresh (R251, R291). -/
def Core.loadBound (k : Core) (refresh : BitVec 32) (o : MemOp) : Bool :=
  let land := o.land.toNat
  k.q.ld.isEmpty && match o.space with
  | .loc => decide (6 ≤ land)
  | .clu => decide (24 ≤ land)
  | .ws =>
    let b := (k.memAddr o).toNat / 16384 % 64
    let m := (refresh.toNat + 65536 - 1024 * b) % 65536
    (k.f.wsAt == 0 || decide (k.f.wsAt + 3 ≤ k.f.cyc)) && decide (96 ≤ land ∨ (56 ≤ land ∧ 40 ≤ m ∧ m ≤ 65487))
  | _ => false

/-- An LD or ST operation enters its queue (R201, R203, R205, R210). -/
def Core.enqueue (k : Core) (tick : Nat) (refresh : BitVec 32) (t : MemTag) (o : MemOp) : Core :=
  let lands := (t.isLd && t != .ldPf) || t.isAt
  let ro := { o with reg := physReg k.w.rb o.reg }
  let e : QEnt := { k.entry (.op t) (if t.isLd then 4 else 5) (k.body (.mem t o)) o.space (k.memAddr o) (memBytes o)
      (if t = .ldPf then none else o.gd.arr) with
    handle := o.off.toNat % 4096
    data := if t.isLd then 0 else k.storeData o
    cmp := if t = .atCas then k.readS (o.reg + 1) else 0
    land := if lands then some (k.f.cyc + max o.land.toNat 1 - 1) else none
    dest := if lands then landDest t ro k.inHandler else .none
    shift := lands
    t0 := tick
    bound := t.isLd && k.loadBound refresh o }
  let k := if o.space = .ws ∧ lands then k.modF fun f => { f with wsAt := f.cyc + 1 } else k
  let k := k.modQ fun q => if t.isLd then { q with ld := q.ld ++ [e] }
    else if t.isSt then { q with st := q.st ++ [e] } else { q with at_ := q.at_ ++ [e] }
  if t = .ldPf then k.arriveNow (.mem t o) else k

/-- An operation of the LD or ST slot. -/
def memStep (t : MemTag) (o : MemOp) (s : State) : Host.Outcome State Fault Refusal :=
  slotStep (.mem t o) (fun s => s.modMe fun k => if o.space = .spill then k.spillStep t o else k.enqueue s.d.tick s.d.refresh t o) s

/-- A floating atomic to a home port outside a reduction window: the event of R307. -/
def State.noteFloat (s : State) (o : MemOp) : State :=
  let k := s.me
  let win := match s.ctxOf s.cur with
    | some x => ((s.d.walk x (k.memAddr o).toNat walkLevels x.ptb.toNat).map Leaf.rwin).getD false
    | none => false
  if o.space = .glob ∧ !win then s.modMe fun k => k.event 0x01 k.f.ipc else s

/-- A floating atomic or reduction (R210, R211). -/
def floatStep (t : MemTag) (o : MemOp) (s : State) : Host.Outcome State Fault Refusal :=
  slotStep (.mem t o) (fun s => (s.noteFloat o).modMe fun k => k.enqueue s.d.tick s.d.refresh t o) s

/-- LD (R203). -/
def execLd (o : MemOp) (s : State) : Host.Outcome State Fault Refusal := memStep .ld o s
/-- LD_ACQ (R203, R206). -/
def execLdAcq (o : MemOp) (s : State) : Host.Outcome State Fault Refusal := memStep .ldAcq o s
/-- LD_TAKE (R204). -/
def execLdTake (o : MemOp) (s : State) : Host.Outcome State Fault Refusal := memStep .ldTake o s
/-- LD_PF (R207). -/
def execLdPf (o : MemOp) (s : State) : Host.Outcome State Fault Refusal := memStep .ldPf o s
/-- ST (R205). -/
def execSt (o : MemOp) (s : State) : Host.Outcome State Fault Refusal := memStep .st o s
/-- ST_REL (R205, R206). -/
def execStRel (o : MemOp) (s : State) : Host.Outcome State Fault Refusal := memStep .stRel o s
/-- ST_FILL (R204, R205). -/
def execStFill (o : MemOp) (s : State) : Host.Outcome State Fault Refusal := memStep .stFill o s
/-- AT_FADD (R210, R211). -/
def execAtFadd (o : MemOp) (s : State) : Host.Outcome State Fault Refusal := floatStep .atFadd o s
/-- RED_FADD (R210, R211). -/
def execRedFadd (o : MemOp) (s : State) : Host.Outcome State Fault Refusal := floatStep .redFadd o s
/-- AT_MIN_N (R210). -/
def execAtMinN (o : MemOp) (s : State) : Host.Outcome State Fault Refusal := memStep .atMinN o s
/-- AT_MAX_N (R210). -/
def execAtMaxN (o : MemOp) (s : State) : Host.Outcome State Fault Refusal := memStep .atMaxN o s
/-- RED_MIN_N (R210). -/
def execRedMinN (o : MemOp) (s : State) : Host.Outcome State Fault Refusal := memStep .redMinN o s
/-- RED_MAX_N (R210). -/
def execRedMaxN (o : MemOp) (s : State) : Host.Outcome State Fault Refusal := memStep .redMaxN o s
/-- AT_ADD (R210). -/
def execAtAdd (o : MemOp) (s : State) : Host.Outcome State Fault Refusal := memStep .atAdd o s
/-- RED_ADD (R210). -/
def execRedAdd (o : MemOp) (s : State) : Host.Outcome State Fault Refusal := memStep .redAdd o s
/-- AT_MIN_I (R210). -/
def execAtMinI (o : MemOp) (s : State) : Host.Outcome State Fault Refusal := memStep .atMinI o s
/-- AT_MAX_I (R210). -/
def execAtMaxI (o : MemOp) (s : State) : Host.Outcome State Fault Refusal := memStep .atMaxI o s
/-- RED_MIN_I (R210). -/
def execRedMinI (o : MemOp) (s : State) : Host.Outcome State Fault Refusal := memStep .redMinI o s
/-- RED_MAX_I (R210). -/
def execRedMaxI (o : MemOp) (s : State) : Host.Outcome State Fault Refusal := memStep .redMaxI o s
/-- AT_AND (R210). -/
def execAtAnd (o : MemOp) (s : State) : Host.Outcome State Fault Refusal := memStep .atAnd o s
/-- AT_OR (R210). -/
def execAtOr (o : MemOp) (s : State) : Host.Outcome State Fault Refusal := memStep .atOr o s
/-- AT_XOR (R210). -/
def execAtXor (o : MemOp) (s : State) : Host.Outcome State Fault Refusal := memStep .atXor o s
/-- RED_AND (R210). -/
def execRedAnd (o : MemOp) (s : State) : Host.Outcome State Fault Refusal := memStep .redAnd o s
/-- RED_OR (R210). -/
def execRedOr (o : MemOp) (s : State) : Host.Outcome State Fault Refusal := memStep .redOr o s
/-- RED_XOR (R210). -/
def execRedXor (o : MemOp) (s : State) : Host.Outcome State Fault Refusal := memStep .redXor o s
/-- AT_SWAP (R210). -/
def execAtSwap (o : MemOp) (s : State) : Host.Outcome State Fault Refusal := memStep .atSwap o s
/-- AT_CAS (R210). -/
def execAtCas (o : MemOp) (s : State) : Host.Outcome State Fault Refusal := memStep .atCas o s

/-! ### Performing -/

/-- The slot whose operation an entry is, for a cause word (R342). -/
def entrySlot (e : QEnt) : Nat :=
  match e.kind with
  | .op t => if t.isLd then 4 else 5
  | _ => 0

/-- The checks of R199 and R200 that stand before the access itself: limits, then alignment, then the one line of ld.take
and st.fill. -/
def State.accessCheck (s : State) (c : CoreId) (e : QEnt) : Option Trap :=
  let a := e.addr.toNat
  let oneLine := e.kind == .op .ldTake || e.kind == .op .stFill
  if !s.spaceOk c e.space a e.size then some (trapAt .protection a)
  else if a % min e.size 64 ≠ 0 ∨ (oneLine ∧ a % 128 + e.size > 128) then some (trapAt .align a)
  else none

/-- Replaces an entry of any of the three queues. -/
def Core.modEntry (k : Core) (seq : Nat) (f : QEnt → QEnt) : Core :=
  let g := fun (e : QEnt) => if e.seq = seq then f e else e
  k.modQ fun q => { q with ld := q.ld.map g, st := q.st.map g, at_ := q.at_.map g }

/-- An entry meets a fault (R203, R205). -/
def State.entryFault (s : State) (c : CoreId) (e : QEnt) (t : Trap) : State :=
  s.modCore c fun k => k.modEntry e.seq fun x => { x with fault := some { t with slot := entrySlot e } }

/-- A store, or a reduction, is performed: its entry is freed and its arrival made (R66, R201). -/
def State.freeEntry (s : State) (c : CoreId) (e : QEnt) : State :=
  s.modCore c fun k => (k.modQ fun q => { q with
    ld := q.ld.filter fun x => x.seq != e.seq
    st := q.st.filter fun x => x.seq != e.seq
    at_ := q.at_.filter fun x => x.seq != e.seq }).arrive e.seq e.arr

/-- Bytes held by the open region over bytes that a load has read: the core's own later loads see them (R240). -/
def State.overlay (s : State) (c : CoreId) (sp : Space) (a : Nat) (bs : List Byte) : List Byte :=
  let k := s.core c
  if !k.rg.opened then bs
  else
    (List.range bs.length).map fun i =>
      match s.storage c sp (a + i) 1 with
      | [(id, p, _)] =>
        k.rg.held.foldl (fun v h =>
          (List.range h.bytes.length).foldl (fun v j =>
            if s.storage c h.space (h.addr.toNat + j) 1 == [(id, p, 1)] then h.bytes.getD j v else v) v) (bs.getD i 0)
      | _ => bs.getD i 0

/-- What a read of the next unit of a load comes to: bytes at their place in the data, and the units now done. -/
def State.loadUnit (s : State) (c : CoreId) (e : QEnt) : Get × Nat :=
  if e.space = .handle then
    match s.handle c e.handle with
    | .error t => (.bad t, 0)
    | .ok h =>
      match h.count e.size with
      | none => (.bad (trapAt .layoutFault e.handle), 0)
      | some n =>
        let w := h.fmt.width / 8
        let (c0, c1, c2, c3) := coords e.addr
        if n ≤ e.prog then (.ok [] false, e.prog)
        else if h.inside (c0 + e.prog) c1 c2 c3 then
          match s.elementVa c h (c0 + e.prog) c1 c2 c3 with
          | .error t => (.bad t, 0)
          | .ok va =>
            match s.get c none .glob va w with
            | .ok bs p => (.ok (s.overlay c .glob va bs) p, e.prog + 1)
            | g => (g, e.prog + 1)
        else (.ok (bytesOf w h.outside) false, e.prog + 1)
  else
    let a := e.addr.toNat
    let n := s.unitLen c e.space a e.size e.prog
    match s.get c none e.space (a + e.prog) n with
    | .ok bs p => (.ok (s.overlay c e.space (a + e.prog) bs) p, e.prog + n)
    | g => (g, 0)

/-- Bytes per unit of progress: an element's for a handle access, one otherwise (R356). -/
def State.unitBytes (s : State) (c : CoreId) (e : QEnt) : Nat :=
  if e.space = .handle then
    match s.handle c e.handle with
    | .ok h => h.fmt.width / 8
    | .error _ => 1
  else 1

/-- The tag of a queue entry that is an operation. -/
def tagOf (e : QEnt) : MemTag :=
  match e.kind with
  | .op t => t
  | _ => .st

/-- What the read of the next unit of a load leaves behind (R307, R338, R415): also for the entry of its handle and the bitmap. -/
def State.noteUnit (s : State) (c : CoreId) (e : QEnt) (n : Nat) : State :=
  if e.space = .handle then
    match s.handle c e.handle with
    | .error _ => s.noteHandle c e.ipc e.handle
    | .ok h =>
      let (c0, c1, c2, c3) := coords e.addr
      let s := s.noteHandle c e.ipc e.handle
      if h.inside (c0 + e.prog) c1 c2 c3 then
        let s := if h.conv then s.noteVa c e.ipc .read (h.bitmapVa (c0 + e.prog) c1 c2 c3) 1 else s
        match s.elementVa c h (c0 + e.prog) c1 c2 c3 with
        | .ok va => if (tagOf e).isLd then s.noteRead c e.ipc .glob va n else s
        | .error _ => s
      else s
  else s.noteRead c e.ipc e.space (e.addr.toNat + e.prog) n

/-- What the look at a handle leaves behind where the access then faults. -/
def State.noteLook (s : State) (c : CoreId) (e : QEnt) : State := if e.space = .handle then s.noteUnit c e 0 else s

/-- The ticks a load must still wait out in the weight store (R250). -/
def State.loadWait (s : State) (e : QEnt) : Nat :=
  if e.space = .ws then max (s.d.wsWait e.addr.toNat) (s.d.wsWait (e.addr.toNat + e.size - 1)) else 0

/-- A load of the weight store may reach its bank, or has waited out the refresh of it (R250, R251). -/
def State.wsReady (s : State) (e : QEnt) : Bool :=
  e.space != .ws || (decide (e.t0 + 1 ≤ s.d.tick) && decide (e.until_ ≤ s.d.tick))

/-- LOAD_PERFORM (R203, R204, R208, R209): the load queue performs the next unit of its first load. A read that reaches a
weight-store bank in refresh is performed at the end of the window (R250). -/
def execLoadPerform (c : CoreId) (s : State) : Host.Outcome State Fault Refusal :=
  match (s.core c).q.ld.find? fun e => !e.done with
  | none => notEnabled "LOAD_PERFORM"
  | some e =>
    if e.fault.isSome || !s.mayGo c 0 e then notEnabled "LOAD_PERFORM"
    else if e.kind = .op .ldPf then .next (s.freeEntry c e)
    else
      match (if e.space = .handle ∨ e.kind = .pop then none else s.accessCheck c e) with
      | some t => .next (s.entryFault c e t)
      | none =>
        let w := s.loadWait e
        if !s.wsReady e then notEnabled "LOAD_PERFORM"
        else if e.until_ = 0 ∧ 0 < w then
          .next ((s.modD fun d => d.sample (clusOf c) 5 none [w]).modCore c fun k =>
            k.modEntry e.seq fun x => { x with until_ := s.d.tick + w })
        else
          match s.loadUnit c e with
          | (.late, _) => notEnabled "LOAD_PERFORM"
          | (.bad t, _) => .next ((s.noteLook c e).entryFault c e t)
          | (.ok bs bad, prog) =>
            let at_ := 8 * e.prog * s.unitBytes c e
            let last := decide (e.size / s.unitBytes c e ≤ prog)
            let s := (s.noteUnit c e bs.length).modCore c fun k => (k.modEntry e.seq fun x => { x with
              data := x.data ||| BitVec.ofNat 1024 (natOf bs * 2 ^ at_)
              poison := x.poison || bad
              prog := prog
              done := last })
            let s := if last then s.modCore c fun k => k.modQ fun q => { q with
                ld := q.ld.map fun x => if x.done then x else { x with t0 := s.d.tick } } else s
            .next (if e.kind = .op .ldTake then
              let (t, off) := spadOf c e.space e.addr.toNat
              s.modCore t fun k => k.mark (linesOf off e.size) false
            else s)

/-- Lines that the held parts of stores need (R240). -/
def heldLines (held : List Held) : Nat :=
  ((held.flatMap fun h => (linesOf h.addr.toNat h.bytes.length).map fun l => (h.space.code, l)).dedup).length

/-- The open region holds a store (R240): one to the global space, or to the cluster window but for the core's own scratchpad.
DEDUCED (log 92): the region begins after the bundle that holds sy.ireg, so that a store of that bundle is not held. -/
def Core.buffers (k : Core) (c : CoreId) (e : QEnt) : Bool :=
  k.rg.opened && !k.rg.unbuf && decide (k.rg.seq < e.seq)
  && !(e.space == .clu && (ownRange c e.space e.addr).isSome)
  && (e.kind == .op .st || e.kind == .op .stRel) && (e.space == .glob || e.space == .clu)

/-- The held parts once a unit of a store is among them. -/
def Core.heldWith (k : Core) (e : QEnt) (a : Nat) (bs : List Byte) : List Held :=
  k.rg.held ++ [⟨e, e.prog, e.space, BitVec.ofNat 64 a, bs⟩]

/-- A held store would need a 257th line (R240). -/
def Core.overflows (k : Core) (c : CoreId) (e : QEnt) (a : Nat) (bs : List Byte) : Bool :=
  k.buffers c e && !decide (heldLines (k.heldWith e a bs) ≤ Config.regionLines)

/-- What writing one unit of a store comes to (R205, R208, R240). DESIGN CHOICE: a store that the region holds counts as performed: its
entry is freed, and no sy.fence, SEQ access or hold of issue waits for it, on which R240, R276 and R278 are silent (log 107). -/
def State.storeUnit (s : State) (c : CoreId) (e : QEnt) (a : Nat) (bs : List Byte) : Put :=
  if (s.core c).buffers c e then
    let ok := match e.space with
      | .glob => (s.reach c .write a bs.length).1
      | _ => .ok [] false
    match ok with
    | .bad t => .bad t
    | .late => .late
    | .ok _ _ => .ok (s.modCore c fun k => { k with rg := { k.rg with held := k.heldWith e a bs } })
  else s.put c none e.ipc (if e.space = .handle then .glob else e.space) a bs false

/-- The next unit of a store: where it goes, and the progress after it. None: there is nothing to write. -/
def State.storeNext (s : State) (c : CoreId) (e : QEnt) : Except Trap (Option (Nat × List Byte) × Nat × Bool) :=
  if e.space = .handle then do
    let h ← s.handle c e.handle
    match h.count e.size with
    | none => .error (trapAt .layoutFault e.handle)
    | some n =>
      let w := h.fmt.width / 8
      let (c0, c1, c2, c3) := coords e.addr
      let last := decide (n ≤ e.prog + 1)
      if h.inside (c0 + e.prog) c1 c2 c3 then do
        let va ← s.elementVa c h (c0 + e.prog) c1 c2 c3
        pure (some (va, bytesOf w (e.data.toNat / 2 ^ (8 * w * e.prog))), e.prog + 1, last)
      else pure (none, e.prog + 1, last)
  else
    let a := e.addr.toNat
    let n := s.unitLen c e.space a e.size e.prog
    .ok (some (a + e.prog, bytesOf n (e.data.toNat / 2 ^ (8 * e.prog))), e.prog + n, decide (e.size ≤ e.prog + n))

/-- STORE_PERFORM (R204, R205, R208, R240): the store queue performs the next unit of its first store. One that would need a 257th
line of the open region first has every held line committed, and the region goes on unbuffered. -/
def execStorePerform (c : CoreId) (s : State) : Host.Outcome State Fault Refusal :=
  match (s.core c).q.st with
  | [] => notEnabled "STORE_PERFORM"
  | e :: _ =>
    if e.fault.isSome || !s.mayGo c 1 e then notEnabled "STORE_PERFORM"
    else
      let plain : Bool := match e.kind with
        | .op _ => e.space != .handle
        | _ => false
      match (if plain then s.accessCheck c e else none), s.storeNext c e with
      | some t, _ => .next (s.entryFault c e t)
      | none, .error t => .next ((s.noteLook c e).entryFault c e t)
      | none, .ok (w, prog, last) =>
        let done := fun (s : State) =>
          let s := if e.kind = .op .stFill then
              let (t, off) := spadOf c e.space e.addr.toNat
              s.modCore t fun k => k.mark (linesOf off e.size) true
            else s
          if last then s.freeEntry c e else s.modCore c fun k => k.modEntry e.seq fun x => { x with prog := prog }
        match w with
        | none => .next (done s)
        | some (a, bs) =>
          if (s.core c).overflows c e a bs then .next (s.commitRegion c).1
          else
          match (if e.space = .handle then s.noteUnit c e bs.length else s).storeUnit c e a bs with
          | .late => notEnabled "STORE_PERFORM"
          | .bad t => .next ((s.noteLook c e).entryFault c e t)
          | .ok s => .next (done s)

/-! ### Atomics and reductions -/

/-- The operation of an atomic or reduction (R210). -/
def redOpOf : MemTag → RedOp
  | .atAdd | .redAdd => .add
  | .atMinN | .redMinN => .minN
  | .atMaxN | .redMaxN => .maxN
  | .atMinI | .redMinI => .minI
  | .atMaxI | .redMaxI => .maxI
  | .atAnd | .redAnd => .and
  | .atOr | .redOr => .or
  | .atXor | .redXor => .xor
  | .atSwap => .swap
  | .atCas => .cas
  | _ => .fadd

/-- new of R210, on w = 64 or 32 bits; `cmp` is the second operand of at.cas. -/
def redApply (op : RedOp) (w64 : Bool) (old v cmp : W64) : W64 :=
  let w := if w64 then 64 else 32
  let a := old.toNat % 2 ^ w
  let b := v.toNat % 2 ^ w
  let sg := fun (n : Nat) => intOf (if w64 then .i64 else .i32) n
  BitVec.ofNat 64 <| match op with
    | .add => (a + b) % 2 ^ w
    | .minN => min a b
    | .maxN => max a b
    | .minI => if sg b < sg a then b else a
    | .maxI => if sg a < sg b then b else a
    | .and => a &&& b
    | .or => a ||| b
    | .xor => a ^^^ b
    | .swap => b
    | .cas => if a = b then cmp.toNat % 2 ^ w else a
    | .fadd => (floatFmt .f32).rne (((floatFmt .f32).toX a).add ((floatFmt .f32).toX b))

/-- A read and a write at the home of an address as one step (R210, R405): the old value, or why not. -/
def State.rmw (s : State) (c : CoreId) (ipc : W64) (sp : Space) (a : Nat) (n : Nat) (acc : Acc) (f : W64 → W64) :
    Get × State :=
  match sp with
  | .glob =>
    match s.reach c acc a n with
    | (.ok _ _, ps) =>
      if ps.any fun p => s.d.memPoisoned p.1.pa p.2 then (.bad (trapAt .poison a), s)
      else
        let old := ps.flatMap fun p => s.d.readMem p.1.key p.1.pa p.2
        let at_ := ps.map fun p => (p.1.pa, p.2)
        let s := (s.noteScrub c ipc ps).charge c at_
        (.ok old false, (s.modD fun d => d.writePlaces ps (bytesOf n (f (BitVec.ofNat 64 (natOf old))).toNat)).textWritten at_)
    | (g, _) => (g, s)
  | _ =>
    let (t, off) := spadOf c sp a
    let k := s.core t
    if !k.full off n then (.late, s)
    else if k.spadPoisoned off n then (.bad (trapAt .poison a), s)
    else
      let old := k.m.spad.read off n
      (.ok old false, s.writeSpad c t off (bytesOf n (f (BitVec.ofNat 64 (natOf old))).toNat))

/-- A reduction on a page that is a reduction window (R212): the place it reaches. -/
def State.windowPlace (s : State) (c : CoreId) (e : QEnt) : Option Place :=
  if (tagOf e).isAt || e.space != .glob then none
  else
    match s.xlate c e.addr.toNat (.atomic false) with
    | .ok p => if p.rwin then some p else none
    | .error _ => none

/-- ATOMIC_PERFORM (R210, R405): the first atomic or reduction is performed at its home. -/
def execAtomicPerform (c : CoreId) (s : State) : Host.Outcome State Fault Refusal :=
  match (s.core c).q.at_.find? fun e => !e.done with
  | none => notEnabled "ATOMIC_PERFORM"
  | some e =>
    if e.fault.isSome || !s.mayGo c 4 e then notEnabled "ATOMIC_PERFORM"
    else
      match s.accessCheck c e with
      | some t => .next (s.entryFault c e t)
      | none =>
        if (s.windowPlace c e).isSome then notEnabled "ATOMIC_PERFORM"
        else
          let t := tagOf e
          match s.rmw c e.ipc e.space e.addr.toNat e.size (.atomic t.isAt)
              (fun old => redApply (redOpOf t) (e.size == 8) old (e.data.setWidth 64) e.cmp) with
          | (.late, _) => notEnabled "ATOMIC_PERFORM"
          | (.bad t, s) => .next (s.entryFault c e t)
          | (.ok old _, s) =>
            if t.isAt then .next (s.modCore c fun k => k.modEntry e.seq fun x => { x with
              data := BitVec.ofNat 1024 (natOf old), done := true, prog := e.size })
            else .next (s.freeEntry c e)

/-! ### Reduction windows -/

/-- This device's number on the fabric (log 7). -/
def thisDevice : Nat := 0

/-- The set-up of the window that a location belongs to (R286): what the device holds of it, or what the supervisors made of it
(log 7). -/
def Dev.winSet (d : Dev) (loc : Nat) : List Nat × Nat :=
  match d.wins.find? fun w => decide (w.base ≤ loc) && decide (loc < w.base + w.size) with
  | some w => (w.parts, w.cr)
  | none => (Config.windowParts loc, Config.windowRound loc)

/-- Contributions in the order in which a partial folds them (R286). -/
def sortContribs (xs : List Contrib) : List Contrib :=
  sortBy (fun (a b : Contrib) => decide (a.core < b.core) || (a.core == b.core && Nat.ble a.seq b.seq)) xs

/-- The partial of a round, once the device holds Cr contributions: folded in order, each step with the operation of the
contribution it takes. The round has the operation, width and key of its latest one (R286; log 7). -/
def Window.fold (w : Window) : Window :=
  if (w.partials.any fun p => p.1 == thisDevice) || decide (w.mine.length < w.cr) then w
  else
    match sortContribs (w.mine.take w.cr), (w.mine.take w.cr).getLast? with
    | x :: xs, some z => { w with
        mine := w.mine.drop w.cr
        partials := w.partials ++ [(thisDevice, xs.foldl (fun a y => redApply y.op y.w64 a y.v 0) x.v)]
        op := z.op, w64 := z.w64, key := z.key, slot := z.slot }
    | _, _ => w

/-- Changes the window of a location. -/
def Dev.modLoc (d : Dev) (loc : Nat) (f : Window → Window) : Dev :=
  { d with locs := d.locs.map fun w => if w.loc = loc then f w else w }

/-- WINDOW_CONTRIBUTION (R286): a red form reaches the device's egress, unless its unit or page is lost (R405, R409) or its page
being moved (R410). A contribution that comes while the device's round before it is not merged is the event 0x04 (R307). -/
def execWindowContribution (c : CoreId) (s : State) : Host.Outcome State Fault Refusal :=
  match (s.core c).q.at_.find? fun e => !e.done with
  | none => notEnabled "WINDOW_CONTRIBUTION"
  | some e =>
    if e.fault.isSome || !s.mayGo c 4 e || (s.accessCheck c e).isSome then notEnabled "WINDOW_CONTRIBUTION"
    else
      match s.windowPlace c e with
      | none => notEnabled "WINDOW_CONTRIBUTION"
      | some p =>
        if s.d.gone p.pa e.size || s.d.memPoisoned p.pa e.size then .next (s.entryFault c e (trapAt .poison e.addr.toNat))
        else if s.d.locked p.pa e.size then notEnabled "WINDOW_CONTRIBUTION"
        else
          let early := s.d.locs.any fun w => w.loc == p.pa && w.partials.any fun x => x.1 == thisDevice
          let s := if early then s.modCore c fun k => k.event 0x04 e.ipc else s
          let s := s.modD fun d =>
            let x : Contrib := ⟨c.val, e.seq, e.data.setWidth 64, redOpOf (tagOf e), e.size == 8, p.kslot,
              BitVec.ofNat 4 (s.classOf c)⟩
            let d := if d.locs.any fun w => w.loc == p.pa then d
              else { d with locs := d.locs ++ [⟨p.pa, (d.winSet p.pa).1, (d.winSet p.pa).2, [], [], [], x.op, x.w64, x.key, x.slot⟩] }
            d.modLoc p.pa fun w => Window.fold { w with mine := w.mine ++ [x], unmerged := w.unmerged ++ [(c.val, e.seq)] }
          .next (s.freeEntry c e)

/-- The pairwise tree of R287 over slots that may be empty; `fuel` bounds its levels. -/
def mergeTree (f : W64 → W64 → W64) : Nat → List W64 → Option W64
  | _, [] => none
  | _, [x] => some x
  | 0, x :: _ => some x
  | fuel + 1, xs => mergeTree f fuel (level xs)
where
  /-- One level: a pair with one empty slot passes the other element. -/
  level : List W64 → List W64
    | a :: b :: r => f a b :: level r
    | r => r

/-- WINDOW_ROUND_MERGE (R287): every participant's partial is there; one merged update reaches the home, once no move locks it
(R410). Where the home has become poisoned or lost since, the update is not performed (R405, R409). -/
def execWindowRoundMerge (loc : Nat) (s : State) : Host.Outcome State Fault Refusal :=
  match s.d.locs.find? fun w => w.loc == loc with
  | none => notEnabled "WINDOW_ROUND_MERGE"
  | some w =>
    let vs := ((sortBy Nat.ble w.parts).map fun p => (w.partials.find? fun x => x.1 == p).map Prod.snd)
    let n := if w.w64 then 8 else 4
    if vs.any Option.isNone || s.d.locked loc n then notEnabled "WINDOW_ROUND_MERGE"
    else
      match mergeTree (fun a b => redApply w.op w.w64 a b 0) 64 (vs.filterMap id) with
      | none => notEnabled "WINDOW_ROUND_MERGE"
      | some m =>
        let o : Opener := ⟨s.d.keyOf w.key, none⟩
        let next := fun (d : Dev) => d.modLoc loc fun w =>
          Window.fold { w with partials := [], unmerged := w.unmerged.drop w.cr }
        if s.d.gone loc n || s.d.memPoisoned loc n then .next (s.modD next)
        else
          let old := BitVec.ofNat 64 (natOf (s.d.readMem o loc n))
          .next ((s.modD fun d => next ((d.ask w.slot.toNat loc n).writeMem o loc
            (bytesOf n (redApply w.op w.w64 old m 0).toNat))).textWritten [(loc, n)])

end Sys2Proof.Machine
end

