-- ==== Sys2Proof/Machine/Copy.lean ====
section
/-! DEFINITION. The copy queue and the BTE (R213 to R218). -/

namespace Sys2Proof.Machine
open Sys2Proof

/-! ### Issue -/

/-- The destination of a CP operation (R213, R219). -/
def Core.cpDst (k : Core) (o : CpOp) : W64 := k.readS o.db + o.doff.signExtend 64 * 128

/-- The scratchpad and the lines that a mode-01 copy of n bytes marks at issue (R51, R215), whatever the checks at its begin will
find; none where the address names no scratchpad of the cluster (log 22). -/
def feLines (c : CoreId) (sp : Space) (a n : Nat) : CoreId × List Nat :=
  let (t, off) := spadOf c sp a
  let off := off % 2 ^ 19
  if n = 0 ∨ (sp = .clu ∧ 9 < field a 19 4) then (t, [])
  else (t, upFrom (off / 128) (min 3072 ((off + n - 1) / 128 + 1) - off / 128))

/-- A copy or fill enters the copy queue; with mode 01 its destination lines are empty from now on (R215), and
addressed by the core's caravan (R248). -/
def copyStep (t : CpTag) (o : CpOp) (s : State) : Host.Outcome State Fault Refusal :=
  slotStep (.cp t o) (fun s =>
    let k := s.me
    let dst := k.cpDst o
    let n := k.readS o.len
    let s := if o.mode = .fe then
        let (x, ls) := feLines s.cur o.dsp dst.toNat n.toNat
        (if ls.isEmpty then s else s.claim s.cur x).modCore x fun k => k.mark ls false
      else s
    s.modMe fun k => k.modQ fun q => { q with
      cp := q.cp ++ [⟨k.f.seq + 6, k.f.ipc, k.body (.cp t o), t == .cpFill, o.mode, o.dsp, dst, o.ssp, k.readS o.sb, n, 0, false,
        q.openBatch, t == .cpFill && (poisonS k o.sb).isSome, [], [], k.w.pl, none, o.gd.arr, k.inHandler⟩] }) s

/-- CP_COPY (R213, R215). -/
def execCpCopy (o : CpOp) (s : State) : Host.Outcome State Fault Refusal := copyStep .cpCopy o s
/-- CP_FILL (R214, R215). -/
def execCpFill (o : CpOp) (s : State) : Host.Outcome State Fault Refusal := copyStep .cpFill o s

/-- CP_CLOSE (R216). -/
def execCpClose (o : CpOp) (s : State) : Host.Outcome State Fault Refusal :=
  slotStep (.cp .cpClose o) (fun s => s.modMe fun k =>
    if k.openPending then
      let x : Close := ⟨k.f.seq + 6, k.f.ipc, k.body (.cp .cpClose o), k.q.openBatch, o.gd.arr⟩
      let k := k.modQ fun q => { q with closes := q.closes ++ [x] }
      k.closeBatch
    else k.arriveNow (.cp .cpClose o)) s

/-! ### The BTE -/

/-- SPAN of a launch record (R320). -/
def recSpan (r : BitVec 1024) : Nat := field r.toNat 120 2

/-- Whether a caravan may use a die (R218). -/
def Caravan.covers (x : Caravan) (die : Fin 4) : Bool := recSpan x.rec_ == 0 || x.die == die

/-- A user interrupt is raised: held, or lost as the ninth (R136). -/
def Core.raiseUi (k : Core) (sp : Space) (a : W64) : Core :=
  if k.q.ui.length < Config.maxHeldUi then
    k.modQ fun q => { q with ui := q.ui ++ [BitVec.ofNat 64 (a.toNat % 2 ^ 48 + sp.code * 2 ^ 48)] }
  else k.modW fun w => { w with flags := w.flags ||| flagUilost }

/-- The last byte of a copy is written (R215, R216): its entry is freed, its arrival made, its interrupt raised; a closed
batch that this completes makes its cp.close's arrival. -/
def Core.copyDone (k : Core) (x : Copy) : Core :=
  let k := (k.modQ fun q => { q with cp := q.cp.filter fun y => y.seq != x.seq }).arriveLater x.seq x.arr
  let k := if x.mode = .ui then k.raiseUi x.dsp x.dst else k
  if k.q.cp.any fun y => y.batch == x.batch then k
  else
    let (go, stay) := k.q.closes.partition fun y => y.batch == x.batch
    go.foldl (fun k y => k.arriveLater y.seq y.arr) (k.modQ fun q => { q with closes := stay })

/-- A copy of the queue is changed. -/
def Core.modCopy (k : Core) (seq : Nat) (f : Copy → Copy) : Core :=
  k.modQ fun q => { q with cp := q.cp.map fun y => if y.seq = seq then f y else y }

/-- A copy meets a fault (R215): it stands at the piece in which it met it. -/
def Core.copyFault (k : Core) (x : Copy) (t : Trap) : Core :=
  k.modCopy x.seq fun y => { y with fault := some { t with slot := 6 }, buf := [], wrote := [] }

/-- The checks made when the BTE begins a copy (R213, R214, R218). -/
def State.copyCheck (s : State) (c : CoreId) (x : Copy) : Option Trap :=
  let n := x.n.toNat
  let al := fun (m : Nat) (v : W64) => failIf (v.toNat % m != 0) .align v
  let lim := fun (sp : Space) (a : W64) => failIf (n != 0 && !s.spaceOk c sp a.toNat n) .protection a
  firstTrap [
    failIf (decide (2 ^ 24 < n)) .protection x.n,
    if x.fill then none else al 16 x.src,
    al 16 x.dst, al 16 x.n,
    if x.mode = .fe then firstTrap [al 128 x.dst, al 128 x.n] else none,
    if x.fill then none else lim x.ssp x.src,
    lim x.dsp x.dst,
    failIf (x.dsp == .ws && s.d.cars.any fun y => y.covers (dieOf c) && (s.core c).car != some y.id) .protection x.dst]

/-- COPY_BEGIN (R213, R215, R218): the checks of the first copy; a copy of no bytes completes at once. -/
def execCopyBegin (c : CoreId) (s : State) : Host.Outcome State Fault Refusal :=
  match (s.core c).q.cp with
  | [] => notEnabled "COPY_BEGIN"
  | x :: _ =>
    if x.begun || x.fault.isSome then notEnabled "COPY_BEGIN"
    else
      match s.copyCheck c x with
      | some t => .next (s.modCore c fun k => k.copyFault x t)
      | none =>
        if x.n = 0 then .next (s.modCore c fun k => k.copyDone x)
        else .next (s.modCore c fun k => k.modCopy x.seq fun y => { y with begun := true })

/-- The places in storage of a whole range, as far as it maps; `fuel` bounds the pages. -/
def State.globPlaces (s : State) (c : CoreId) : Nat → Nat → Nat → List (Nat × Nat × Nat)
  | 0, _, _ => []
  | _, _, 0 => []
  | fuel + 1, va, n =>
    match (s.ctxOf c).bind fun x => s.d.walk x va walkLevels x.ptb.toNat with
    | none => []
    | some l =>
      let left := 2 ^ l.bits - va % 2 ^ l.bits
      (0, l.base + va % 2 ^ l.bits, min n left) :: s.globPlaces c fuel (va + left) (n - left)

/-- The places in storage of a range of any space. -/
def State.rangePlaces (s : State) (c : CoreId) (sp : Space) (a n : Nat) : List (Nat × Nat × Nat) :=
  match sp with
  | .glob => s.globPlaces c 300 a n
  | .ws => [(400 + (dieOf c).val, a, n)]
  | sp => s.storage c sp a n

/-- Byte i of a list of places. -/
def placeAt : List (Nat × Nat × Nat) → Nat → Option (Nat × Nat)
  | [], _ => none
  | (t, a, n) :: ps, i => if i < n then some (t, a + i) else placeAt ps (i - n)

/-- Whether a place lies in a list of places. -/
def inPlaces (ps : List (Nat × Nat × Nat)) (p : Nat × Nat) : Bool :=
  ps.any fun q => q.1 == p.1 && decide (q.2.1 ≤ p.2) && decide (p.2 < q.2.1 + q.2.2)

/-- Two lists of places overlap in some byte. -/
def placesMeet (a b : List (Nat × Nat × Nat)) : Bool :=
  a.any fun x => b.any fun y => x.1 == y.1 && x.2.2 != 0 && y.2.2 != 0 && decide (x.2.1 < y.2.1 + y.2.2)
    && decide (y.2.1 < x.2.1 + x.2.2)

/-- Bytes from the i-th of a copy on, written where its source and its destination overlap, are open (R213). -/
def freeOverlap (fresh i : Nat) (src dst : List (Nat × Nat × Nat)) (bs : List Byte) : List Byte :=
  (bs.zipIdx).map fun b => match placeAt dst b.2 with
    | some p => if inPlaces src p then Config.freeByte fresh (i + b.2) else b.1
    | none => b.1

/-- A step of an engine at the level at which its operation issued (R252), whatever the core runs by now. -/
def State.atLevel (s : State) (c : CoreId) (pl : BitVec 2) (f : State → Host.Outcome State Fault Refusal) :
    Host.Outcome State Fault Refusal :=
  let at_ := fun (s : State) (l : BitVec 2) => s.modCore c fun k => k.modW fun w => { w with pl := l }
  match f (at_ s pl) with
  | .next t => .next (at_ t (s.core c).w.pl)
  | o => o

namespace Copy

/-- Bytes of the piece in progress: up to 128 of the destination (R213). -/
def piece (x : Copy) : Nat := min 128 (x.n.toNat - x.prog)

/-- Units of 16 bytes of it (R270). -/
def units (x : Copy) : Nat := (x.piece + 15) / 16

/-- Unit i of a fill. -/
def pattern (x : Copy) (i : Nat) : List Byte :=
  (List.range 16).map fun j => BitVec.ofNat 8 (x.src.toNat / 2 ^ (8 * ((x.prog + 16 * i + j) % 8)))

end Copy

namespace State

/-- Poison of the units that lie wholly in n bytes at an address of a space is cleared (R406). -/
def cleared (s : State) (c : CoreId) (sp : Space) (a n : Nat) : State :=
  match sp with
  | .glob => match s.placesVa c .write 3 a n with
    | .ok ps => s.modD fun d => ps.foldl (fun d p => { d with memP := Dev.uncovered 64 p.1.pa p.2 d.memP }) d
    | .error _ => s
  | .ws => s.modD fun d => { d with wsP := d.wsP.set (dieOf c) (Dev.uncovered 64 a n d.wsP[dieOf c]) }
  | .loc | .clu =>
    let (t, off) := spadOf c sp a
    s.modCore t fun k => k.modM fun m => { m with spadP := Dev.uncovered 128 off n m.spadP }
  | _ => s

/-- A unit of a copy has been written: what it completes of its piece and wrote clean loses its poison, a unit of memory or a line of a
scratchpad (R405, R406). `a`: the address of the piece. -/
def cleanBlock (s : State) (c : CoreId) (sp : Space) (a : Nat) (wrote : List Bool) : State :=
  let w := if sp = .loc ∨ sp = .clu then 128 else 64
  let e := a + 16 * wrote.length
  if e % w = 0 ∧ a + w ≤ e ∧ (wrote.drop (wrote.length - w / 16)).all (!·) = true then s.cleared c sp (e - w) w else s

/-- Up to so many further units of the piece are read, as far as they are there (R213, R270). -/
def copyRead (c : CoreId) : Nat → State → Copy → State × Copy × Option Trap
  | 0, s, x => (s, x, none)
  | n + 1, s, x =>
    let i := x.wrote.length + x.buf.length
    let a := x.src.toNat + x.prog + 16 * i
    if x.units ≤ i then (s, x, none)
    else if x.fill then copyRead c n s { x with buf := x.buf ++ [(x.pattern i, x.poison)] }
    else
      match s.get c (some 1) x.ssp a 16 with
      | .late => (s, x, none)
      | .bad t => (s, x, some t)
      | .ok bs p => copyRead c n (s.noteRead c x.ipc x.ssp a 16) { x with buf := x.buf ++ [(bs, p)] }

/-- Up to so many units that are read are written. -/
def copyWrite (c : CoreId) : Nat → State → Copy → State × Copy × Option Trap
  | 0, s, x => (s, x, none)
  | n + 1, s, x =>
    match x.buf with
    | [] => (s, x, none)
    | (bs, p) :: rest =>
      let i := x.prog + 16 * x.wrote.length
      let a := x.dst.toNat + i
      let bs := if x.fill then bs else
        freeOverlap s.fresh i (s.rangePlaces c x.ssp x.src.toNat x.n.toNat) (s.rangePlaces c x.dsp a 16) bs
      match s.put c (some 1) x.ipc x.dsp a bs p with
      | .late => (s, x, none)
      | .bad t => (s, x, some t)
      | .ok s =>
        let wrote := x.wrote ++ [p]
        copyWrite c n (s.cleanBlock c x.dsp (x.dst.toNat + x.prog) wrote) { x with buf := rest, wrote := wrote }

/-- The fault that a piece meets at its source or its destination, found before its first unit is read (R213, R363). -/
def pieceFault (s : State) (c : CoreId) (x : Copy) : Option Trap :=
  if !(x.buf.isEmpty && x.wrote.isEmpty) then none
  else
    match (if x.fill then Get.late else s.get c (some 1) x.ssp (x.src.toNat + x.prog) x.piece) with
    | .bad t => some t
    | _ => match s.put c (some 1) x.ipc x.dsp (x.dst.toNat + x.prog) (zeros x.piece) false with
      | .bad t => some t
      | _ => none

/-- A piece is written: its line is full under mode 01, and the copy goes on or is complete (R213, R215). -/
def pieceDone (s : State) (c : CoreId) (x : Copy) : State :=
  let s := if x.mode = .fe then
      let (t, off) := spadOf c x.dsp (x.dst.toNat + x.prog)
      s.modCore t fun k => k.mark (linesOf off x.piece) true
    else s
  s.modCore c fun k =>
    if x.n.toNat ≤ x.prog + x.piece then k.copyDone x
    else k.modCopy x.seq fun y => { y with prog := x.prog + x.piece, buf := [], wrote := [] }

/-- The kinds of the pages of a piece. -/
def pieceKinds (s : State) (c : CoreId) (x : Copy) : List Nat :=
  (if x.dsp = .glob then s.kindsIn c 2 (x.dst.toNat + x.prog) x.piece else []) ++
    (if !x.fill && x.ssp == .glob then s.kindsIn c 2 (x.src.toNat + x.prog) x.piece else [])

/-- Some units of a copy's piece are read, and some of those read are written. -/
def copyUnits (c : CoreId) (rd wr : Nat) (x : Copy) (s : State) : Host.Outcome State Fault Refusal :=
  let stop := notEnabled "COPY_PIECE_WRITE"
  let bad := fun (s : State) (t : Trap) => Host.Outcome.next (s.modCore c fun k => k.copyFault x t)
  if !x.begun || x.fault.isSome || !s.ordered c 2 x.seq (s.pieceKinds c x) false false then stop
  else
    match s.pieceFault c x with
    | some t => bad s t
    | none =>
      match copyRead c rd s x with
      | (s, _, some t) => bad s t
      | (s, y, none) =>
        match copyWrite c wr s y with
        | (s, _, some t) => bad s t
        | (s, y, none) =>
          if y.buf = x.buf ∧ y.wrote = x.wrote then stop
          else if y.wrote.length = y.units then .next (s.pieceDone c y)
          else .next (s.modCore c fun k => k.modCopy x.seq fun z => { z with buf := y.buf, wrote := y.wrote })

end State

/-- COPY_PIECE_WRITE (R213 to R216, R252, R270, R271, R304, R406): one unit of 16 bytes of the first copy's next 128-byte piece: the
first unit that is read and not yet written is written, and where there is none the next is read. -/
def execCopyPieceWrite (c : CoreId) (s : State) : Host.Outcome State Fault Refusal :=
  match (s.core c).q.cp with
  | [] => notEnabled "COPY_PIECE_WRITE"
  | x :: _ => s.atLevel c x.pl (if x.buf.isEmpty then State.copyUnits c 1 0 x else State.copyUnits c 0 1 x)

/-- The engine reads the next unit of the piece ahead of the writes of those it has read (R271): a move of the environment's (log 5). -/
def copyReadAhead (c : CoreId) (s : State) : Host.Outcome State Fault Refusal :=
  match (s.core c).q.cp with
  | [] => notEnabled "COPY_PIECE_WRITE"
  | x :: _ => s.atLevel c x.pl (State.copyUnits c 1 0 x)

end Sys2Proof.Machine
end

