-- ==== Sys2Proof/Machine/Shuffle.lean ====
section
/-! DEFINITION. The shuffle queue and the barchan engine (R219 to R224). -/

namespace Sys2Proof.Machine
open Sys2Proof

/-- A bx operation enters the shuffle queue (R219). -/
def shufStep (t : CpTag) (o : CpOp) (s : State) : Host.Outcome State Fault Refusal :=
  slotStep (.cp t o) (fun s => s.modMe fun k =>
    let list := match t with
      | .bxGth | .bxSct => k.readS (o.len + 1)
      | _ => 0
    k.modQ fun q => { q with sh := q.sh ++ [⟨k.f.seq + 6, k.f.ipc, k.body (.cp t o), t, o.dsp, k.cpDst o, o.ssp, k.readS o.sb,
      k.readS o.len, list, 0, false, k.w.pl, none, o.gd.arr, k.inHandler⟩] }) s

/-- BX_TR (R219, R221). -/
def execBxTr (o : CpOp) (s : State) : Host.Outcome State Fault Refusal := shufStep .bxTr o s
/-- BX_ILV (R219, R221). -/
def execBxIlv (o : CpOp) (s : State) : Host.Outcome State Fault Refusal := shufStep .bxIlv o s
/-- BX_GTH (R219, R222). -/
def execBxGth (o : CpOp) (s : State) : Host.Outcome State Fault Refusal := shufStep .bxGth o s
/-- BX_SCT (R219, R223). -/
def execBxSct (o : CpOp) (s : State) : Host.Outcome State Fault Refusal := shufStep .bxSct o s
/-- BX_BC (R219, R221). -/
def execBxBc (o : CpOp) (s : State) : Host.Outcome State Fault Refusal := shufStep .bxBc o s

/-- A shuffle with the fields of its words (R220). -/
structure Shape where
  es    : Nat              -- bytes of an element
  total : Nat              -- elements to be met
  src   : Nat              -- elements of the source range
  dst   : Nat              -- elements of the destination range
  r     : Nat              -- R, or NE
  c     : Nat              -- C, or K
  len   : Nat
  idx   : Nat
  msk   : Nat
  me    : Bool
  deriving DecidableEq, Repr

/-- A form with an index list. -/
def listed (t : CpTag) : Bool := t == .bxGth || t == .bxSct

/-- The shape of a shuffle, or the word that breaks R220. -/
def shapeOf (x : Shuf) : Except W64 Shape :=
  let w := x.shape.toNat
  let l := x.list.toNat
  let es := 2 ^ field w 32 4
  let only := fun (v m : W64) => v &&& ~~~m == 0
  match x.tag with
  | .bxTr =>
    let r := field w 0 16
    let c := field w 16 16
    if only x.shape 0xFFFFFFFFF && decide (1 ≤ r) && decide (r ≤ 4096) && decide (1 ≤ c) && decide (c ≤ 4096)
        && decide (field w 32 4 ≤ 3) then .ok ⟨es, r * c, r * c, r * c, r, c, 0, 0, 0, false⟩
    else .error x.shape
  | .bxIlv =>
    let ne := field w 0 16
    let k := field w 16 5
    if only x.shape 0xF001FFFFF && decide (1 ≤ ne) && decide (2 ≤ k) && decide (k ≤ 16) && decide (field w 32 4 ≤ 3) then
      .ok ⟨es, ne * k, ne * k, ne * k, ne, k, 0, 0, 0, false⟩
    else .error x.shape
  | .bxGth | .bxSct =>
    let n := field w 0 24
    let len := field w 40 24
    if !(only x.shape 0xFFFFFF0F00FFFFFF && decide (field w 32 4 ≤ 7)) then .error x.shape
    else if !(only x.list 0x000FFFFF0007FFFF && field l 0 2 == 0 && field l 32 4 == 0) then .error x.list
    else .ok ⟨es, n, if x.tag = .bxGth then len else n, if x.tag = .bxGth then n else len, 0, 0, len, field l 0 19,
      field l 32 19, field l 51 1 == 1⟩
  | _ =>
    let n := field w 0 24
    if only x.shape 0xF00FFFFFF && decide (field w 32 4 ≤ 7) then .ok ⟨es, n, min n 1, n, 0, 0, 0, 0, 0, false⟩
    else .error x.shape

/-- Bytes that the mask of a list covers (R224). -/
def Shape.maskBytes (h : Shape) : Nat := if h.me then (h.total + 127) / 128 * 16 else 0

/-- The checks when the engine begins a shuffle (R219, R220): its words, its alignment, its ranges. -/
def State.shufCheck (s : State) (c : CoreId) (x : Shuf) : Option Trap :=
  match shapeOf x with
  | .error w => trapW .protection w
  | .ok h =>
    let al := fun (a : W64) => failIf (a.toNat % h.es != 0) .align a
    let lim := fun (sp : Space) (a : W64) (n : Nat) => failIf (n != 0 && !s.spaceOk c sp a.toNat n) .protection a
    firstTrap [al x.src, al x.dst, lim x.ssp x.src (h.src * h.es), lim x.dsp x.dst (h.dst * h.es),
      if listed x.tag then lim .loc (BitVec.ofNat 64 h.idx) (4 * h.total) else none,
      lim .loc (BitVec.ofNat 64 h.msk) h.maskBytes]

/-- What one element of a shuffle asks for: nothing; or a destination element that takes a source element or zero; with
the mask bit it gives. -/
structure Elem where
  dst  : Option Nat
  src  : Option Nat        -- none: zero
  bit  : Bool
  goob : Bool
  deriving DecidableEq, Repr

/-- Element i of a shuffle, for the index x that its list holds (R221 to R223). -/
def elemOf (t : CpTag) (h : Shape) (i x : Nat) : Elem :=
  match t with
  | .bxTr => ⟨some i, some (i % h.r * h.c + i / h.r), false, false⟩
  | .bxIlv => ⟨some i, some (i % h.c * h.r + i / h.c), false, false⟩
  | .bxGth =>
    if x = 0xFFFFFFFF then ⟨none, none, false, false⟩
    else if h.len ≤ x then ⟨some i, none, true, true⟩
    else ⟨some i, some x, false, false⟩
  | .bxSct =>
    if x = 0xFFFFFFFF then ⟨none, none, false, false⟩
    else if h.len ≤ x then ⟨none, none, true, true⟩
    else ⟨some x, some i, false, false⟩
  | _ => ⟨some i, some 0, false, false⟩

/-- A shuffle of the queue is changed. -/
def Core.modShuf (k : Core) (seq : Nat) (f : Shuf → Shuf) : Core :=
  k.modQ fun q => { q with sh := q.sh.map fun y => if y.seq = seq then f y else y }

/-- A bit of the mask is written in its byte (R224). -/
def State.putMask (s : State) (c : CoreId) (x : Shuf) (h : Shape) (i : Nat) (b : Bool) : Put :=
  if !h.me then .ok s
  else
    let a := h.msk + i / 8
    let old := ((s.core c).m.spad.get a).toNat
    let new := old - field old (i % 8) 1 * 2 ^ (i % 8) + bit b * 2 ^ (i % 8)
    s.put c (some 2) x.ipc .loc a [BitVec.ofNat 8 new] false

/-- The source and the destination of a shuffle overlap, which leaves the whole destination open (R219). -/
def State.shufOverlap (s : State) (c : CoreId) (x : Shuf) (h : Shape) : Bool :=
  placesMeet (s.rangePlaces c x.ssp x.src.toNat (h.src * h.es)) (s.rangePlaces c x.dsp x.dst.toNat (h.dst * h.es))

/-- Bytes whose values are open, told apart by their numbers from i on. -/
def freeBytes (fresh i n : Nat) : List Byte := (upFrom i n).map (Config.freeByte fresh)

/-- The writes of one element, in their order. -/
def State.putElem (s : State) (c : CoreId) (x : Shuf) (h : Shape) (e : Elem) (bs : List Byte) (p : Bool) : Put :=
  let s := if e.goob then s.modCore c fun k => k.modW fun w => { w with flags := w.flags ||| flagGoob } else s
  match e.dst with
  | none => s.putMask c x h x.prog e.bit
  | some d =>
    let da := x.dst.toNat + d * h.es
    let bs := if s.shufOverlap c x h then freeBytes s.fresh (x.prog * h.es) h.es else bs
    match s.put c (some 2) x.ipc x.dsp da bs p with
    | .ok s => s.putMask c x h x.prog e.bit
    | r => r

/-- The next element of a shuffle (R221 to R224, R304, R406). DESIGN CHOICE (log 93): where the index list or the source changes
while the shuffle runs, which R224 leaves undefined, the element takes the bytes that stand there when it is met. -/
def State.shufElem (s : State) (c : CoreId) (x : Shuf) (h : Shape) : Put :=
  let idx := if listed x.tag then s.get c (some 2) .loc (h.idx + 4 * x.prog) 4 else .ok [] false
  match idx with
  | .late => .late
  | .bad t => .bad t
  | .ok ib ip =>
    let e := elemOf x.tag h x.prog (natOf ib)
    let got := match e.src with
      | none => Get.ok (List.replicate h.es 0) false
      | some n => s.get c (some 2) x.ssp (x.src.toNat + n * h.es) h.es
    match got with
    | .late => .late
    | .bad t => .bad t
    | .ok bs p =>
      let s := match e.src with
        | some n => s.noteRead c x.ipc x.ssp (x.src.toNat + n * h.es) h.es
        | none => s
      s.putElem c x h e bs (p || ip)

/-- Up to n elements, as far as lines are full and nothing faults; whether any was met. -/
def State.shufRun (s : State) (c : CoreId) (h : Shape) : Nat → Shuf → Bool → State × Bool
  | 0, _, b => (s, b)
  | n + 1, x, b =>
    if h.total ≤ x.prog then (s, b)
    else
      match s.shufElem c x h with
      | .late => (s, b)
      | .bad t => (s.modCore c fun k => k.modShuf x.seq fun y => { y with fault := some { t with slot := 6 } }, true)
      | .ok s =>
        (s.modCore c fun k => k.modShuf x.seq fun y => { y with prog := x.prog + 1 }).shufRun c h n { x with prog := x.prog + 1 } true

/-- SHUFFLE_BEGIN (R219 to R224, R252): the first shuffle is begun and checked, and the engine meets up to n elements of it; taken
again, it goes on with them. -/
def execShuffleBegin (c : CoreId) (n : Nat) (s : State) : Host.Outcome State Fault Refusal :=
  match (s.core c).q.sh with
  | [] => notEnabled "SHUFFLE_BEGIN"
  | x :: _ => s.atLevel c x.pl fun s =>
    if x.fault.isSome || !s.ordered c 3 x.seq [] false false then notEnabled "SHUFFLE_BEGIN"
    else
      match (if x.begun then none else s.shufCheck c x), shapeOf x with
      | some t, _ => .next (s.modCore c fun k => k.modShuf x.seq fun y => { y with fault := some { t with slot := 6 } })
      | none, .error w =>
        .next (s.modCore c fun k => k.modShuf x.seq fun y => { y with fault := some ⟨.protection, 6, w⟩ })
      | none, .ok h =>
        let r := (s.modCore c fun k => k.modShuf x.seq fun y => { y with begun := true }).shufRun c h n { x with begun := true }
          (!x.begun)
        if r.2 then .next r.1 else notEnabled "SHUFFLE_BEGIN"

/-- The bits of the mask from CNT on are zero (R224). -/
def State.maskTail (s : State) (c : CoreId) (x : Shuf) (h : Shape) : Put :=
  if h.maskBytes = 0 ∨ h.total % 128 = 0 then .ok s
  else
    let a := h.msk + h.total / 8
    let n := h.msk + h.maskBytes - a
    let old := ((s.core c).m.spad.get a).toNat
    s.put c (some 2) x.ipc .loc a (BitVec.ofNat 8 (old % 2 ^ (h.total % 8)) :: List.replicate (n - 1) 0) false

/-- What the end of a shuffle writes: the bits of the mask behind CNT, and the whole destination where the ranges overlap (R219,
R224). -/
def State.shufEnd (s : State) (c : CoreId) (x : Shuf) (h : Shape) : Put :=
  match (if listed x.tag then s.maskTail c x h else .ok s) with
  | .ok s => if s.shufOverlap c x h then
      s.put c (some 2) x.ipc x.dsp x.dst.toNat (freeBytes s.fresh 0 (h.dst * h.es)) false else .ok s
  | r => r

/-- SHUFFLE_COMPLETE (R219, R224): every element has been met; the rest of the mask is written, the entry freed and the
arrival made. -/
def execShuffleComplete (c : CoreId) (s : State) : Host.Outcome State Fault Refusal :=
  match (s.core c).q.sh with
  | [] => notEnabled "SHUFFLE_COMPLETE"
  | x :: _ =>
    match shapeOf x with
    | .error _ => notEnabled "SHUFFLE_COMPLETE"
    | .ok h =>
      if !x.begun || x.fault.isSome || decide (x.prog < h.total) then notEnabled "SHUFFLE_COMPLETE"
      else s.atLevel c x.pl fun s =>
        match s.shufEnd c x h with
        | .late => notEnabled "SHUFFLE_COMPLETE"
        | .bad t => .next (s.modCore c fun k => k.modShuf x.seq fun y => { y with fault := some { t with slot := 6 } })
        | .ok s => .next (s.modCore c fun k =>
            (k.modQ fun q => { q with sh := q.sh.filter fun y => y.seq != x.seq }).arriveLater x.seq x.arr)

end Sys2Proof.Machine
end

