-- ==== Sys2Proof/Machine/Records.lean ====
section
/-! DEFINITION. Continuation records in their pools: placement, wake and requeue (R236, R328, R331, R335), the delivery of a
seif engine's fault to a core (R264, R372), and the end of a run (R235). -/

namespace Sys2Proof.Machine
open Sys2Proof

/-- The scratchpad's lines are nobody's: what they hold is open (R10, R246). `kind` keeps free values of different stores
apart. -/
def freeStore (fresh kind n : Nat) : Memory :=
  Sparse.write [] 0 ((List.range n).map fun i => Config.freeByte fresh (2 ^ 64 * (kind + 1) + i))

/-- Free values in the lines of a scratchpad. -/
def Core.openLines (k : Core) (fresh : Nat) (owner : Option (BitVec 12)) : Core :=
  { k with
    m := { k.m with spad := freeStore fresh 0 Config.spadBytes, spadP := [], empty := [] }
    lineCtx := owner
    lineCar := none }

/-- The engines of a core have nothing left to do. -/
def Core.enginesDone (k : Core) : Bool :=
  k.q.cp.isEmpty && k.q.sh.isEmpty && k.q.arr.isEmpty && k.q.earr.isEmpty && k.q.closes.isEmpty

namespace CRec

/-- The record waits in a pool to be selected. -/
def ready (r : CRec) : Bool := r.st == .runnable || r.st == .escalated

/-- The record is parked in a context area (R378). -/
def isParked (r : CRec) : Bool := r.area.isSome

/-- The record becomes runnable at a tick, at the back of its pool. -/
def wakeAt (r : CRec) (tick : Nat) : CRec := { r with st := .runnable, wait := .none, since := tick }

end CRec

namespace Dev

/-- Records in the pool of a cluster and a stage (R331). -/
def poolCount (d : Dev) (clu stage : Nat) : Nat :=
  (d.recs.filter fun r => r.ready && r.hclu == clu && r.stage == stage).length

/-- The condition of a waiting record (R236) holds. A line is read once nothing that the record acquired is open (R275 case 11). -/
def condMet (d : Dev) (full : Nat → Nat → Nat → Bool) (open_ : Release → Bool) (r : CRec) : Bool :=
  match r.wait, d.car r.car with
  | .none, _ => true
  | .bar n ph, some x => x.bars[n].phase != ph
  | .ev n, some x => x.evs.getLsbD n.val
  | .line pos line, _ => full r.hclu pos line && !r.acq.any open_
  | _, none => false

end Dev

namespace State

/-- Whether a line of a position of a cluster is full. -/
def lineFull (s : State) (clu pos line : Nat) : Bool := !(s.core (coreAt clu pos)).m.empty.contains line

/-- A core runs a stream of a context. -/
def runsCtx (s : State) (c : CoreId) (x : BitVec 12) : Bool :=
  let k := s.core c
  k.run.isSome && k.w.pl == 0 && !k.sup && k.w.ctxid == x

/-- The reports of faults that have not been delivered, at the cores that may take them (R372). -/
def postSeif (s : State) : State :=
  (s.d.seif.toList.flatten.filter fun v => v.aside && !v.delivered).foldl (fun (s : State) v =>
    let rep := some (BitVec.ofNat 64 v.h, v.addr)
    if s.runsCtx v.core v.ctx then s.modCore v.core fun k => { k with seif := rep }
    else (List.finRange 320).foldl (fun (s : State) c =>
      if s.runsCtx c v.ctx then s.modCore c fun k => { k with seif := rep } else s) s)
    { s with cores := s.cores.map fun k => { k with seif := none } }

/-- A record of a context resumes or is selected: conversions of it that were set aside, and whose fault has been
delivered, may be taken up again (R264). -/
def retrySeif (s : State) (x : BitVec 12) : State :=
  s.modD fun d => { d with seif := d.seif.map fun vs => vs.map fun v =>
    if v.ctx = x ∧ v.aside ∧ v.delivered then { v with again := true } else v }

/-! ### The end of a run -/

/-- A core whose stream has left it: it runs nothing, its latches are invalid (R26, R235). Copies and shuffles go on, under the
joins that bind them, and what the core acquired binds what is accessed from it next (R230, R233, R275 cases 1 and 11). -/
def idleCore (k : Core) : Core :=
  { k with
    r := { k.r with xv := 0, xp := 0 }
    w := { k.w with pl := 0, uih := false }
    q := { k.q with
      hold := none, shold := none, khold := none, taking := [], redo := [], pend := [], slb := [], ui := [] }
    rg := .reset
    run := none
    sup := false
    supSelf := false
    preempt := false
    expired := false
    f := { k.f with peb := 0, hpeb := 0, next := none, first := false, knext := none, kidle := none, wait := 0, extra := 0,
                    fixed := none, held := false, brk := none, leave := none } }

/-- A record with the place it left as its hint (R330). -/
def leaving (c : CoreId) (k : Core) (pc : W64) (ss : Vector W64 5) (r : CRec) : CRec :=
  { r with pc := pc &&& 0xFFFFFFFFFFFF, s := ss, hclu := (clusOf c).val, hpos := posOf c, hv := true, ran := true,
           area := if k.sup then some k.w.carea else none }

/-- What a core acquired and still waits for: its record takes it along (R275 case 11). -/
def carried (s : State) (c : CoreId) : List Release :=
  ((s.core c).q.walls.filter s.wallOpen).map fun w => ⟨0, w.core, w.before, w.skip⟩

/-- What a suspending record waits for; none where its condition holds at once, with what its wake acquires (R236, R230). -/
def waitOf (s : State) (c : CoreId) (t : SyTag) (o : SyOp) (a : W64) : Option Wait × List Release :=
  let x := (s.core c).car.bind s.d.car
  match t with
  | .sySuspend =>
    let b := s.bar c o.bar.toFin
    if b.pend = 0 then (none, b.rel.filter fun r => r.mark == bit (!b.phase)) else (some (.bar o.bar.toFin b.phase), [])
  | .sySuspendEv =>
    let n : Fin 1024 := Fin.ofNat 1024 a.toNat
    let set := (x.map fun x => x.evs.getLsbD n.val).getD false
    if set then (none, ((x.map Caravan.evRel).getD []).filter fun r => r.mark == n.val) else (some (.ev n), [])
  | .sySuspendFe =>
    let (t, off) := spadOf c .clu a.toNat
    let line := off / 128
    if s.lineFull (clusOf c).val (posOf t) line && (s.carried c).isEmpty then (none, []) else (some (.line (posOf t) line), [])
  | _ => (none, [])

/-- A run has ended on a core: with SHARE = 1 its binding has too (R332). -/
def endRunLines (s : State) (c : CoreId) : State :=
  match (s.core c).car.bind s.d.car with
  | some x => if field x.rec_.toNat 706 1 = 1 then s.modCore c fun k => { k with unbind := true, lineCar := none } else s
  | none => s

/-- Once the engines of a run whose binding has ended with SHARE = 1 are done, its lines hold nothing any more (R332; log 59). -/
def settleLines (s : State) (c : CoreId) : State :=
  if s.shareOver c && !(s.core c).active && (s.core c).enginesDone then
    s.modCore c fun k => { k.openLines s.fresh k.lineCtx with unbind := false }
  else s

/-- The run of a record on a core ends (R235, R236, R239, R378). A park ends the binding, for which the engines finish what the
stream gave them. -/
def leave (s : State) (c : CoreId) (t : SyTag) (o : SyOp) (a : W64) : State :=
  let k := s.core c
  let (w, acq) := s.waitOf c t o a
  let kept := s.carried c
  let tick := s.d.tick
  let park := t == SyTag.syYieldPark
  let s := match k.run with
    | none => s
    | some id => s.modD fun d =>
      if t = SyTag.syRetire then { d with recs := d.recs.filter fun r => r.id != id }
      else d.modRec id fun r =>
        let r := leaving c k k.f.pc k.firstFive r
        let r := if park then { r with acq := r.acq ++ kept ++ [Release.mk 0 c.val (k.f.seq + 8) k.run] }
          else { r with acq := kept ++ acq }
        match w with
        | some w => { r with st := .waiting, wait := w }
        | none => r.wakeAt tick
  let s := s.modCore c idleCore
  let s := if park then s.modCore c fun k => { k with unbind := true, lineCar := none } else s.endRunLines c
  s.pruneSusp.postSeif

/-- The restart of a region (R367): held lines are discarded, and the record goes back to its pool at the restart point. -/
def restartRegion (s : State) (c : CoreId) : State :=
  let k := s.core c
  let s := match k.run with
    | none => s
    | some id => s.modD fun d => d.modRec id fun r =>
        { (leaving c k k.rg.pc k.rg.s r).wakeAt s.d.tick with acq := s.carried c }
  ((s.modCore c idleCore).endRunLines c).postSeif

end State

end Sys2Proof.Machine
end

