-- ==== Sys2Proof/Machine/Barrier.lean ====
section
/-! DEFINITION. Barriers (R225 to R230). -/

namespace Sys2Proof.Machine
open Sys2Proof

/-- An SY operation. -/
def syStep (t : SyTag) (o : SyOp) (effect : State → State) (s : State) : Host.Outcome State Fault Refusal :=
  slotStep (.sy t o) effect s

/-- The operation's work is done in its issue cycle: its arrival at the end of it. -/
def syDone (t : SyTag) (o : SyOp) (s : State) : State := s.modMe fun k => k.arriveNow (.sy t o)

/-- An effect on a barrier object at the end of this cycle, before the core's arrivals (R226). -/
def barEffect (t : SyTag) (o : SyOp) (init : Bool) (p : W64) (s : State) : Host.Outcome State Fault Refusal :=
  syStep t o (fun s => s.modMe fun k => k.push { k.owed 5 (.sy t o) o.gd.arr with
    body := k.body (.sy t o), dest := .bar o.bar.toFin init, val := p.setWidth 1024 }) s

/-- BAR_INIT_IMM (R227). -/
def execBarInitImm (o : SyOp) (s : State) : Host.Outcome State Fault Refusal := barEffect .barInitImm o true (o.imm.setWidth 64) s
/-- BAR_INIT_REG (R227). -/
def execBarInitReg (o : SyOp) (s : State) : Host.Outcome State Fault Refusal := barEffect .barInitReg o true (s.me.readS o.sa) s
/-- BAR_EXPECT_IMM (R228). -/
def execBarExpectImm (o : SyOp) (s : State) : Host.Outcome State Fault Refusal :=
  barEffect .barExpectImm o false (o.imm.setWidth 64) s
/-- BAR_EXPECT_REG (R228). -/
def execBarExpectReg (o : SyOp) (s : State) : Host.Outcome State Fault Refusal := barEffect .barExpectReg o false (s.me.readS o.sa) s

/-- BAR_ARRIVE (R226): an arrival of the SY slot, before the operation's own ARR arrival. -/
def execBarArrive (o : SyOp) (s : State) : Host.Outcome State Fault Refusal :=
  syStep .barArrive o (fun s => syDone .barArrive o (s.modMe fun k => k.push (k.owed 4 (.sy .barArrive o) (some o.bar)))) s

/-- A hold of the SY slot. -/
def Core.holdSy (k : Core) (t : SyTag) (o : SyOp) (h : HoldKind) (b : W64) : Core :=
  k.modQ fun q => { q with hold := some ⟨h, k.f.seq + 7, k.f.ipc, k.body (.sy t o), 7, b, o.gd.arr, k.inHandler, none⟩ }

/-- What passing a wait on a phase acquires (R230). -/
def Bar.acquired (b : Bar) (phase : Bool) : List Release := b.rel.filter fun r => r.mark == bit phase

/-- What a core saw before it waits is no completion of the phase it then records (R229). -/
def State.unflip (s : State) (c : CoreId) (b : Fin 16) : State :=
  match (s.core c).car with
  | some id => s.modD fun d => d.modCar id fun x => { x with bars := x.bars.set b { x.bars[b] with flips := setDel x.bars[b].flips c.val } }
  | none => s

/-- BAR_WAIT (R229): with PEND = 0 it passes; else it records PHASE and holds issue. -/
def execBarWait (o : SyOp) (s : State) : Host.Outcome State Fault Refusal :=
  syStep .barWait o (fun s =>
    let b := s.bar s.cur o.bar.toFin
    if b.pend = 0 then syDone .barWait o (s.acquire s.cur (b.acquired (!b.phase)))
    else (s.unflip s.cur o.bar.toFin).modMe fun k => k.holdSy .barWait o (.barWait o.bar.toFin b.phase) 0) s

/-- BAR_TEST (R229): the object's bits at the end of the issue cycle, over the cycle's other writes (R20, R231). -/
def execBarTest (o : SyOp) (s : State) : Host.Outcome State Fault Refusal :=
  syStep .barTest o (fun s => s.modMe fun k => k.push { k.blank 4 9 (k.body (.sy .barTest o)) o.gd.arr with
    dest := k.destS o.sa false, val := (s.bar s.cur o.bar.toFin).bits.setWidth 1024 }) s

/-! ### Events -/

/-- A core's own arrivals of this cycle may be applied: its cycle has nothing left to write (R226). -/
def ownReady (k : Core) : Bool := k.f.at_ == .after && !k.f.frozen && k.nextWrite.isNone && k.dueLandings.isEmpty

/-- The earliest arrival at a barrier in a list. -/
def firstAt (b : Fin 16) (as : List (BitVec 4 × Nat)) : Option (BitVec 4 × Nat) :=
  (as.filter fun a => a.1 == BitVec.ofNat 4 b.val).foldl (fun m a => match m with
    | none => some a
    | some x => if a.2 < x.2 then some a else some x) none

/-- BARRIER_ARRIVAL (R226): one arrival at an object: a core's own at the end of its cycle, earlier-issued first; else one of
an engine's. -/
def execBarrierArrival (car : Nat) (b : Fin 16) (s : State) : Host.Outcome State Fault Refusal :=
  let mine := (List.finRange 320).filter fun c => (s.core c).car == some car
  let prune := fun (s : State) => s.modD fun d => d.modCar car fun x => { x with
    bars := x.bars.set b { x.bars[b] with rel := x.bars[b].rel.filter fun r => s.releaseOpen r.skip r.core r.before } }
  match mine.findSome? fun c => if ownReady (s.core c) then (firstAt b (s.core c).q.arr).map fun a => (c, a) else none with
  | some (c, a) =>
    .next (prune ((s.modCore c fun k => k.modQ fun q => { q with arr := q.arr.erase a }).modD
      fun d => d.modBar car b (Bar.arrive c.val a.2 true)))
  | none =>
    match mine.findSome? fun c => (firstAt b (s.core c).q.earr).map fun a => (c, a) with
    | some (c, a) =>
      .next (prune ((s.modCore c fun k => k.modQ fun q => { q with earr := q.earr.erase a }).modD
        fun d => d.modBar car b (Bar.arrive c.val a.2 false)))
    | none => notEnabled "BARRIER_ARRIVAL"

/-- The held operation at a place in issue order leaves its slot. -/
def Queues.dropHold (q : Queues) (seq : Nat) : Queues :=
  { q with hold := q.hold.filter fun x => x.seq != seq, shold := q.shold.filter fun x => x.seq != seq }

/-- The held operation at a place in issue order meets a fault, or none. -/
def Core.faultHold (k : Core) (seq : Nat) (t : Option Trap) : Core :=
  let f := fun (x : Hold) => if x.seq = seq then { x with fault := t } else x
  k.modQ fun q => { q with hold := q.hold.map f, shold := q.shold.map f }

/-- The operations that hold issue. -/
def Core.holds (k : Core) : List Hold := k.q.hold.toList ++ k.q.shold.toList

/-- A bar.wait that holds issue: its barrier and the phase it recorded. -/
def Core.waiting (k : Core) : Option (Hold × Fin 16 × Bool) :=
  k.holds.findSome? fun h => match h.kind with
    | .barWait b ph => some (h, b, ph)
    | _ => none

/-- A hold ends in this cycle: its length is sampled (R293), and its arrival is made at the end of the cycle (R231). -/
def State.endHold (s : State) (c : CoreId) (h : Hold) : State :=
  (s.sampleHold c).modCore c fun k =>
    ((k.modQ fun q => q.dropHold h.seq).modF fun f => { f with wait := 0, at_ := .after }).arrive h.seq h.arr

/-- BAR_WAIT_RELEASE (R229): the core sees the phase flip, and the hold ends at the end of this cycle; or it sees BROKEN. -/
def execBarWaitRelease (c : CoreId) (s : State) : Host.Outcome State Fault Refusal :=
  let k := s.core c
  if !k.atBoundary || k.stopPending || k.uiPending || (s.detNow c && !s.nextOpens c) then notEnabled "BAR_WAIT_RELEASE"
  else
    match k.waiting with
    | some (h, b, ph) =>
      let o := s.bar c b
      if o.broken then .next (s.modCore c fun k => k.faultHold h.seq (some ⟨.barBroken, 7, BitVec.ofNat 64 b.val⟩))
      else if o.phase = ph then notEnabled "BAR_WAIT_RELEASE"
      else .next (((s.endHold c h).acquire c (o.acquired ph)).unflip c b)
    | none => notEnabled "BAR_WAIT_RELEASE"

end Sys2Proof.Machine
end

