-- ==== Sys2Proof/Machine/Layout.lean ====
section
/-! DEFINITION. Layout changes and the seif engines that carry them out (R241, R259, R261 to R265), and the refresh of the weight
stores (R250). -/

namespace Sys2Proof.Machine
open Sys2Proof

/-! ### Entries -/

/-- A bit field of a number replaced. -/
def setField (n pos w v : Nat) : Nat := n - field n pos w * 2 ^ pos + v % 2 ^ w * 2 ^ pos

/-- The entry of a handle that begins to convert (R241). -/
def Handle.begin (h : Handle) (a tag : Nat) : Nat :=
  setField (setField (setField (setField h.raw 64 64 a) 201 3 tag) 204 2 2) 320 32 0

/-- The entry after one more granule (R263). -/
def Handle.advance (h : Handle) : Nat := setField h.raw 320 32 (h.gdone + 1)

/-- The entry of a handle that settles (R265). -/
def Handle.settled (h : Handle) : Nat :=
  setField (setField (setField (setField (setField h.raw 0 64 h.nbase) 198 3 h.ntag) 204 2 1) 64 64 0) 201 3 0

/-! ### layout -/

/-- The bytes of a bitmap with bits 0 to n−1 clear, for the last byte as it stands (R262). -/
def clearedBits (n last : Nat) : List Byte :=
  List.replicate (n / 8) 0 ++ (if n % 8 = 0 then [] else [BitVec.ofNat 8 (last - last % 2 ^ (n % 8))])

/-- Writes bytes at translated places, and sees whether supervisor text was reached. -/
def State.writeAt (s : State) (ps : List (Place × Nat)) (bs : List Byte) : State :=
  (s.modD fun d => d.writePlaces ps bs).textWritten (ps.map fun p => (p.1.pa, p.2))

/-- Pages that a range of n bytes may touch. -/
def pagesOf (n : Nat) : Nat := n / 65536 + 2

/-- Places that layout writes: a page whose data is lost faults (R409). -/
def State.layPlaces (s : State) (c : CoreId) (va n : Nat) : Except Trap (List (Place × Nat)) := do
  let ps ← s.placesVa c .write (pagesOf n) va n
  if ps.any fun p => s.d.gone p.1.pa p.2 then .error (trapAt .poison va) else pure ps

/-- The handle begins to convert (R241): its bitmap is cleared, its entry changes, the die's engine has one conversion more.
The fault is that of the bitmap's or the entry's access. -/
def State.beginConv (s : State) (c : CoreId) (ipc : W64) (n : Nat) (h : Handle) (a tag : Nat) : Except Trap State := do
  let ng := h.grid.2.2
  let s := s.noteVa c ipc .write h.bmp ((ng + 7) / 8)
  let last ← if ng % 8 = 0 then pure 0 else (s.readVa c .read 2 (h.bmp + ng / 8) 1).map natOf
  let bs := clearedBits ng last
  let ps ← s.layPlaces c h.bmp bs.length
  let es ← s.layPlaces c h.entry 64
  let s := (s.writeAt ps bs).writeAt es (bytesOf 64 (h.begin a tag))
  let k := s.core c
  let car := k.car.bind s.d.car
  let v : Conv := ⟨n, BitVec.ofNat 64 h.entry, k.w.ctxid, (s.fnOf c).getD 0, k.w.pl == 0, c, k.car.getD (2 ^ 16),
    (car.map Caravan.order).getD 0, (car.map Caravan.queue).getD 0, (car.map Caravan.slot).getD 0, false, 0, false, false, false, 0⟩
  let die := dieOf c
  pure (s.modD fun d => { d with seif := d.seif.set die (d.seif[die] ++ [v]) })

/-- The effect of layout (R241): an arrival where nothing changes, else the conversion begins. -/
def State.layoutNow (s : State) (c : CoreId) (ipc : W64) (o : SyOp) (a : W64) : Except Trap (State × Option (BitVec 4)) := do
  let n := o.imm.toNat % 4096
  let tag := o.imm.toNat / 4096
  let h ← s.handle c n
  if h.conv || !tagOk h.nd h.fmt tag then .error (trapAt .layoutFault n)
  else if a.toNat % 65536 ≠ 0 then .error ⟨.align, 0, a⟩
  else if tag = h.tag ∧ a.toNat = h.base then pure (s, some h.cbar)
  else
    let s ← s.beginConv c ipc n h a.toNat tag
    pure (s, none)

/-- A page of the handle's entry or of its bitmap is locked by a move, so that layout waits (R410). -/
def State.layoutLate (s : State) (c : CoreId) (o : SyOp) : Bool :=
  let n := o.imm.toNat % 4096
  s.handleLate c n || match s.handle c n with
  | .ok h => let b := (h.grid.2.2 + 7) / 8; s.lateVa c .write (pagesOf b) h.bmp b || s.lateVa c .write 2 h.entry 64
  | .error _ => false

/-- LAYOUT (R241). -/
def execLayout (o : SyOp) (s : State) : Host.Outcome State Fault Refusal :=
  syStep .layout o (fun s =>
    let a := s.me.readS o.sa
    let held := fun (s : State) (t : Option Trap) => s.modMe fun k => (k.holdSy .layout o (.layout a) a).modQ fun q => { q with
        hold := q.hold.map fun h => { h with fault := t.map fun t => { t with slot := 7 } } }
    if s.layoutLate s.cur o then held s none
    else
      let s := s.noteHandle s.cur s.me.f.ipc (o.imm.toNat % 4096)
      match s.layoutNow s.cur s.me.f.ipc o a with
      | .ok (s, some b) => syDone .layout o (s.modMe fun k => k.push (k.owed 4 (.sy .layout o) (some b)))
      | .ok (s, none) => syDone .layout o s
      | .error t => held s (some t)) s

/-! ### The seif engine -/

/-- Why a part of a step cannot be made: a page it needs is locked by a move, or a fault. -/
inductive Stuck where
  | late
  | bad (t : Trap)
  deriving DecidableEq, Repr

/-- Translated places for a conversion, in the context that issued it (R263). -/
def Dev.placesConv (d : Dev) (x : Ctx) (user : Bool) (acc : Acc) : Nat → Nat → Nat → Except Stuck (List (Place × Nat))
  | 0, _, _ => .ok []
  | _, _, 0 => .ok []
  | fuel + 1, va, n =>
    match d.translate x va acc user with
    | .error t => .error (.bad t)
    | .ok p =>
      let k := min n p.left
      if Config.devBytes ≤ p.pa then .error (.bad (trapAt .protection va))
      else if d.gone p.pa k then .error (.bad (trapAt .pageFault va))
      else if d.locked p.pa k then .error .late
      else (d.placesConv x user acc fuel (va + k) (n - k)).map fun ps => (p, k) :: ps

/-- The caravan that issued a layout is still live (R265, R338). -/
def Dev.convCar (d : Dev) (v : Conv) : Option Caravan := (d.car v.car).filter fun y => y.order == v.corder

/-- The class that a granule step is charged to: the slot of the caravan, or of its queue after its end (R338). -/
def Dev.convClass (d : Dev) (v : Conv) : Nat := ((d.convCar v).elim d.qs[v.queue].slot Caravan.slot).toNat

/-- Places are accessed for a conversion. -/
def State.convCharge (s : State) (v : Conv) (ps : List (Place × Nat)) : State :=
  s.modD fun d => ps.foldl (fun d p => d.ask (d.convClass v) p.1.pa p.2) d

/-- Bytes read for a conversion, and whether they are poisoned. -/
def State.convGet (s : State) (x : Ctx) (v : Conv) (va n : Nat) : Except Stuck (List Byte × Bool × State) :=
  (s.d.placesConv x v.user .read 3 va n).map fun ps =>
    (ps.flatMap fun p => s.d.readMem p.1.key p.1.pa p.2, ps.any fun p => s.d.memPoisoned p.1.pa p.2, s.convCharge v ps)

/-- Bytes written for a conversion; poison goes with them (R263, R406). -/
def State.convPut (s : State) (x : Ctx) (v : Conv) (va : Nat) (bs : List Byte) (poison : Bool) : Except Stuck State :=
  (s.d.placesConv x v.user .write 4 va bs.length).map fun ps =>
    let s := (s.convCharge v ps).writeAt ps bs
    if poison then s.modD fun d => ps.foldl (fun d p => d.setPoison p.1.pa p.2) d else s

/-- Several writes in turn. -/
def State.convPuts (s : State) (x : Ctx) (v : Conv) : List (Nat × List Byte) → Except Stuck State
  | [] => .ok s
  | (va, bs) :: ps => do
    let s ← s.convPut x v va bs false
    s.convPuts x v ps

/-- The padding of the new region (R261): positions of no element, and the bytes up to the next multiple of 65,536. -/
def Handle.padding (h : Handle) : List (Nat × List Byte) :=
  let w := h.fmt.width / 8
  let (p0, p1) := h.padded h.ntag
  let out := (List.range (h.e 3)).flatMap fun c3 => (List.range (h.e 2)).flatMap fun c2 => (List.range p1).flatMap fun c1 =>
    (List.range p0).filterMap fun c0 =>
      if h.e 0 ≤ c0 ∨ h.e 1 ≤ c1 then some (h.nbase + h.place h.ntag c0 c1 c2 c3 * w, List.replicate w (0 : Byte)) else none
  let n := h.regionBytes h.ntag
  let tail := (65536 - n % 65536) % 65536
  out ++ (if tail = 0 then [] else [(h.nbase + n, List.replicate tail 0)])

/-- The elements of a granule as coordinates, in increasing L of the old tag (R262, R263). -/
def Handle.elements (h : Handle) (g : Nat) : List (Nat × Nat × Nat × Nat) :=
  let (a, b, _) := h.grid
  let (g0, g1, q) := (g % a, g / a % b, g / a / b)
  let (c2, c3) := (q % h.e 2, q / h.e 2)
  let es := (upFrom (128 * g1) (min 128 (h.e 1 - 128 * g1))).flatMap fun c1 =>
    (upFrom (128 * g0) (min 128 (h.e 0 - 128 * g0))).map fun c0 => (c0, c1, c2, c3)
  es.mergeSort fun x y => decide (h.place h.tag x.1 x.2.1 x.2.2.1 x.2.2.2 ≤ h.place h.tag y.1 y.2.1 y.2.2.1 y.2.2.2)

/-- The new region overlaps the old: what the engine writes is open (R263). -/
def Handle.clash (h : Handle) : Bool :=
  decide (h.base < h.nbase + h.regionBytes h.ntag) && decide (h.nbase < h.base + h.regionBytes h.tag)

/-- The addresses of an element under the old and the new tag. -/
def Handle.ends (h : Handle) (e : Nat × Nat × Nat × Nat) : Nat × Nat :=
  let w := h.fmt.width / 8
  (h.base + h.place h.tag e.1 e.2.1 e.2.2.1 e.2.2.2 * w, h.nbase + h.place h.ntag e.1 e.2.1 e.2.2.1 e.2.2.2 * w)

/-- The elements of a granule carried to the new region (R263). -/
def State.moveElems (s : State) (x : Ctx) (v : Conv) (h : Handle) : List (Nat × Nat × Nat × Nat) → Except Stuck State
  | [] => .ok s
  | e :: es => do
    let w := h.fmt.width / 8
    let (a, b) := h.ends e
    let (bs, p, s) ← s.convGet x v a w
    let bs := if h.clash then (List.range w).map fun i => Config.freeByte s.fresh (b + i) else bs
    let s ← s.convPut x v b bs p
    s.moveElems x v h es

/-- A step that replaces whole units of 64 bytes clears their poison (R405): of the elements' places in the new region, those
units that they fill. -/
def State.wholeUnits (s : State) (x : Ctx) (v : Conv) (h : Handle) (es : List (Nat × Nat × Nat × Nat)) : State :=
  let us := es.flatMap fun e => match s.d.placesConv x v.user .write 1 (h.ends e).2 1 with
    | .ok ps => ps.map fun p => p.1.pa / 64
    | .error _ => []
  s.modD fun d => { d with memP := d.memP.filter fun u => !decide (64 ≤ h.fmt.width / 8 * us.count u) }

/-- The bytes of an abandoned granule in the new region are open (R264). -/
def State.smear (s : State) (x : Ctx) (v : Conv) (h : Handle) (es : List (Nat × Nat × Nat × Nat)) : State :=
  es.foldl (fun (s : State) e =>
    let b := (h.ends e).2
    match s.convPut x v b ((List.range (h.fmt.width / 8)).map fun i => Config.freeByte s.fresh (b + i)) false with
    | .ok s => s
    | .error _ => s) s

/-- The conversion an engine works on (R263, R264): the one begun, else one to be taken up again, else the next. -/
def pickConv (vs : List Conv) : Option Conv :=
  ((vs.find? fun v => v.padded && !v.aside).orElse fun _ => vs.find? fun v => v.aside && v.again).orElse
    fun _ => vs.find? fun v => !v.aside

/-- Changes or ends a conversion of a die. -/
def Dev.modConv (d : Dev) (die : Fin 4) (v : Conv) (f : Conv → Option Conv) : Dev :=
  { d with seif := d.seif.set die (d.seif[die].filterMap fun y => if y.ctx = v.ctx ∧ y.entry = v.entry then f y else some y) }

/-- A step's fault (R264): the conversion is set aside and its fault reported. -/
def State.setAside (s : State) (die : Fin 4) (v : Conv) (t : Trap) : State :=
  (s.modD fun d => d.modConv die v fun y => some { y with
    aside := true, delivered := false, again := false, addr := t.cdata }).postSeif

/-- One granule of a conversion, as one step (R263). -/
def State.granule (s : State) (x : Ctx) (v : Conv) (h : Handle) : Except Stuck State := do
  let es := h.elements v.g
  let s ← (s.wholeUnits x v h es).moveElems x v h es
  let (b, _, s) ← s.convGet x v (h.bmp + v.g / 8) 1
  let s ← s.convPut x v (h.bmp + v.g / 8) [BitVec.ofNat 8 (setField (natOf b) (v.g % 8) 1 1)] false
  s.convPut x v h.entry (bytesOf 64 h.advance) false

/-- GRANULE_STEP (R263 to R265): the die's engine writes the padding of the new region, converts the next granule, or
settles the handle. -/
def execGranuleStep (die : Fin 4) (s : State) : Host.Outcome State Fault Refusal :=
  match pickConv s.d.seif[die] with
  | none => notEnabled "GRANULE_STEP"
  | some v =>
    match s.d.ctx v.ctx with
    | none => notEnabled "GRANULE_STEP"
    | some x =>
      let go := fun (s : State) (f : Conv → Option Conv) =>
        Host.Outcome.next (s.modD fun d => d.modConv die v fun y => f { y with aside := false, delivered := false, again := false })
      match s.convGet x v v.entry.toNat 64 with
      | .error .late => notEnabled "GRANULE_STEP"
      | .error (.bad t) => .next (s.setAside die v t)
      | .ok (raw, _, _) =>
        match handleOf v.entry.toNat (natOf raw) with
        | none => go s fun _ => none
        | some h =>
          if !h.conv then go s fun _ => none
          else if !v.padded then
            match s.convPuts x v h.padding with
            | .ok s => go s fun y => some { y with padded := true }
            | .error .late => notEnabled "GRANULE_STEP"
            | .error (.bad t) => .next (s.setAside die v t)
          else if v.g < h.grid.2.2 then
            match s.granule x v h with
            | .ok s => go s fun y => some { y with g := v.g + 1 }
            | .error .late => notEnabled "GRANULE_STEP"
            | .error (.bad t) => .next ((s.smear x v h (h.elements v.g)).setAside die v t)
          else
            match s.convPut x v h.entry (bytesOf 64 h.settled) false with
            | .ok s => go (match s.d.convCar v with
                | some y => s.modD fun d => d.modBar y.id h.cbar.toFin (Bar.arrive 320 0 false)
                | none => s) fun _ => none
            | .error .late => notEnabled "GRANULE_STEP"
            | .error (.bad t) => .next (s.setAside die v t)

/-- SEIF_FAULT_DELIVERY (R345, R372): the fault of a conversion stops a core at its boundary, after its execution faults. -/
def execSeifFaultDelivery (c : CoreId) (s : State) : Host.Outcome State Fault Refusal :=
  let k := s.core c
  match k.seif with
  | none => notEnabled "SEIF_FAULT_DELIVERY"
  | some (h, a) =>
    if !k.atBoundary || k.w.pl != 0 || k.firstFault.isSome then notEnabled "SEIF_FAULT_DELIVERY"
    else
      let s := s.modD fun d => { d with seif := d.seif.map fun vs => vs.map fun v =>
        if v.ctx = k.w.ctxid ∧ v.h = h.toNat ∧ v.addr = a ∧ v.aside then { v with delivered := true } else v }
      let s := s.stopUser c ⟨.layoutFault, 0, h⟩ false k.f.pc none (s.idleOwed c) a
      .next s.postSeif

/-- WEIGHT_STORE_REFRESH (R250): the refresh counter stands at the start of a bank's window. Its 40 ticks are those in which
reads of the bank find it waiting; its contents stay. -/
def execWeightStoreRefresh (b : Fin 64) (s : State) : Host.Outcome State Fault Refusal :=
  if s.d.refresh.toNat % 65536 = 1024 * b.val then .next s else notEnabled "WEIGHT_STORE_REFRESH"

end Sys2Proof.Machine
end

