-- ==== Sys2Proof/Machine/MxStore.lean ====
section
/-! DEFINITION. The validation of routine entries (R177) and the exchange of the halves of the matrix program store (R178). -/

namespace Sys2Proof.Machine
open Sys2Proof

/-- The offsets that a block operation writes (R190). -/
def mmaMask (k : MmaKind) (u : MuMma) : BitVec 16 :=
  (List.range (if k = .bf16q then 1 else 4)).foldl (fun m i => m ||| BitVec.twoPow 16 ((u.bo.toNat + i) % 16)) 0

/-- MODE of a block operation (R176). -/
def mmaMode : MmaKind → Nat
  | .e4m3 => 1 | .bf16 => 2 | .bf16q => 2 | .i8 => 3 | .ph => 4

/-- Whether a word may stand in a part that began at an index (R177 items 3 to 5). -/
def wordFits (load : Bool) (mode first i : Nat) : Micro → Bool
  | .lat _ => true
  | .mma k _ => !load && mmaMode k == mode
  | .drain _ => !load
  | .adv _ => true
  | .loop u => decide (first ≤ u.t.toNat) && decide (u.t.toNat ≤ i)
  | .end_ => true

/-- The first failing word of a part from an index on, and whether the scan has reached index 2,047 without a mu.end (R177 items 2 to
5, R178); `fuel` bounds the words. -/
def scanPart (mic : Sparse 64) (load : Bool) (mode first : Nat) : Nat → Nat → Option (Nat × Bool)
  | 0, _ => some (2047, true)
  | fuel + 1, i =>
    match (decodeMicro (mic.get i)).filter Micro.wf with
    | none => some (i, false)
    | some u =>
      if !wordFits load mode first i u then some (i, false)
      else if u = .end_ then none
      else if i = 2047 then some (2047, true)
      else scanPart mic load mode first fuel (i + 1)

/-- The union of the offsets that the block operations of a compute part write, from an index on up to its mu.end (R177 item 6).
DEDUCED: whether one of its words fails items 2 to 5 does not matter to item 6 (log 61). -/
def partMask (mic : Sparse 64) : Nat → Nat → BitVec 16 → BitVec 16
  | 0, _, mask => mask
  | fuel + 1, i, mask =>
    match (decodeMicro (mic.get i)).filter Micro.wf with
    | some .end_ => mask
    | some (.mma k v) => partMask mic fuel (i + 1) (mask ||| mmaMask k v)
    | _ => partMask mic fuel (i + 1) mask

/-- Why an entry fails, as bits of cdata (R178); none where it is valid (R177): its own fields first, then the first failing word of
the load part, then that of the compute part. -/
def entryFails (w : W64) (mic : Sparse 64) : Option Nat :=
  let e := routineOf w
  if w = 0 then none
  else if !e.valid || !(e.lv || e.cv) || decide (4 < e.mode) || !e.zero
      || (if e.cv then partMask mic (2048 - e.cpc) e.cpc 0 else 0) != e.bmask then some 256
  else
    ((if e.lv then scanPart mic true e.mode e.lpc 2048 e.lpc else none).orElse fun _ =>
      if e.cv then scanPart mic false e.mode e.cpc 2048 e.cpc else none).map fun f => 512 + f.1 * 2 ^ 16 + bit f.2 * 1024

/-- The lowest entry of a store half that fails, with its cdata (R178). -/
def storeFails (ent mic : Sparse 64) : Option Nat :=
  (List.range 256).findSome? fun e => (entryFails (ent.get e) mic).map fun d => e + d

/-- The exchange of mps.swap; or cdata of its ENCODING (R178). Poison goes with the words (R404). -/
def swapHalves (k : Core) : Core ⊕ Nat :=
  match storeFails k.mx.sent k.mx.smic with
  | some d => .inr d
  | none => .inl (k.modMx fun m => { m with ent := m.sent, mic := m.smic, entP := m.sentP, micP := m.smicP })

end Sys2Proof.Machine
end

