-- ==== Sys2Proof/Machine/Sync.lean ====
section
/-! DEFINITION. The other operations of the SY slot (R217, R231 to R240, R296, R301 to R304, R178, R378) and the end of their holds
(R39, R231). -/

namespace Sys2Proof.Machine
open Sys2Proof

/-! ### What a hold waits for -/

/-- Every operation of the core issued before a place is performed at a scope, and what the core acquired before it too (R275 case
9); at fabric scope its contributions are merged (R232, R278, R288). DESIGN CHOICE: a store that an open region holds counts as
performed, on which R240 and R278 are silent (log 107). -/
def State.fenceMet (s : State) (c : CoreId) (seq scope : Nat) : Bool :=
  !(s.core c).openBefore seq && !s.walled c seq
  && !(scope == 4 && s.d.locs.any fun w => w.unmerged.any fun u => u.1 == c.val && decide (u.2 < seq))

/-- Everything that end_run waits for (R235). -/
def Core.runDone (k : Core) : Bool :=
  k.q.ld.isEmpty && k.q.st.isEmpty && k.q.at_.isEmpty && k.mx.q.isEmpty && k.mx.late.isEmpty && k.mx.comp.isEmpty
  && k.q.pend.isEmpty && k.q.slb.isEmpty

/-- The SY operation of a held operation. -/
def Hold.sy (h : Hold) : SyOp :=
  match decodeSlot false 7 h.body 0 with
  | some (.sy _ o) => o
  | _ => ⟨0, 0, 0, 0, ⟨0, false, none⟩⟩

namespace State

/-- The condition of a core's hold (R231) holds. -/
def holdMet (s : State) (c : CoreId) (h : Hold) : Bool :=
  let k := s.core c
  match h.kind with
  | .barWait _ _ | .barNew _ => false
  | .iend => !k.q.st.any fun e => decide (e.seq < h.seq)
  | .fence sc => s.fenceMet c h.seq sc
  | .waitb n => decide (outstanding k ≤ n)
  | .drained es => es.all fun e => engineDone k e h.seq
  | .endRun _ _ | .restart => k.runDone && !(k.q.cp.any fun x => x.mode == .ui) && k.q.ui.isEmpty && !k.w.uih
  | .spawn _ stage _ =>
    match s.recRun c with
    | some r => decide (s.d.poolCount (clusOf c).val (r.stage + stage) < Config.poolMax)
    | none => true
  | .mpsSwap => k.mx.q.isEmpty
  | .resume _ _ => k.runDone && k.q.cp.isEmpty && k.q.sh.isEmpty && k.q.hold.isNone && !s.walled c h.seq
  | .sup t a b => s.supReady c h.seq t a b
  | .layout _ => !s.layoutLate c h.sy

/-- The held operation whose hold ends at the end of this cycle: the core stands there, nothing of the cycle is left, and its
condition holds (R231). -/
def holdEnds (s : State) (c : CoreId) : Option Hold :=
  let k := s.core c
  if k.active && k.f.at_ == .after && !k.f.frozen && cycleDone k && k.lateBanks.isEmpty && k.f.brk.isNone && !arrayMust k
      && !s.drainMust c then
    k.holds.find? fun h => h.fault.isNone && s.holdMet c h
  else none

/-- A bar.wait's hold whose phase the core's own arrival has completed, or whose barrier it has broken, ends in this cycle
(R229). -/
def waitEnds (s : State) (c : CoreId) : Bool :=
  let k := s.core c
  k.atBoundary && !k.stopPending && !k.uiPending
  && (match k.waiting with
      | some (_, b, ph) => ((s.bar c b).phase != ph || (s.bar c b).broken) && (s.bar c b).flips.contains c.val
          && !(s.detNow c && !s.nextOpens c)
      | none => false)

/-- One tick of a core's clock, where no hold has to end first. -/
def clock (s : State) (c : CoreId) : Option State :=
  if (s.holdEnds c).isSome || s.waitEnds c then none else (s.settleLines c).turn c

/-- The descriptor of a control word, of the table in force at the core's level (R75, R234, R347). -/
def desc (s : State) (c : CoreId) (x : Nat) : Option Descriptor := (s.cword c x).bind fun w => decodeDescriptor w.1

end State

/-- An operation that holds issue until its condition holds; where it does at issue, it is done there. -/
def holdStep (t : SyTag) (o : SyOp) (h : State → HoldKind) (b : State → W64) (done : State → State) (s : State) :
    Host.Outcome State Fault Refusal :=
  syStep t o (fun s =>
    let s' := s.modMe fun k => k.holdSy t o (h s) (b s)
    match s'.me.q.hold with
    | some x => if s.holdMet s.cur x then syDone t o (done s) else s'
    | none => s') s

/-! ### The operations -/

/-- SY_FENCE (R232, R278). -/
def execSyFence (o : SyOp) (s : State) : Host.Outcome State Fault Refusal :=
  holdStep .syFence o (fun _ => .fence o.imm.toNat) (fun _ => 0) id s

/-- SY_QJOIN (R233). -/
def execSyQjoin (o : SyOp) (s : State) : Host.Outcome State Fault Refusal :=
  syStep .syQjoin o (fun s => syDone .syQjoin o (s.modMe fun k => k.modQ fun q => { q with
    joins := q.joins ++ [⟨k.f.seq + 7, o.imm.setWidth 6, k.f.ipc, k.body (.sy .syQjoin o)⟩] })) s

/-- SY_WAITB (R217): the open batch is closed, then at most n closed batches may be outstanding. -/
def execSyWaitb (o : SyOp) (s : State) : Host.Outcome State Fault Refusal :=
  syStep .syWaitb o (fun s =>
    let s := s.modMe Core.closeBatch
    if State.outstanding s.me ≤ o.imm.toNat then syDone .syWaitb o s
    else s.modMe fun k => k.holdSy .syWaitb o (.waitb o.imm.toNat) 0) s

/-- SY_FRAME (R296): SFC reads 0 in the issue cycle. -/
def execSyFrame (o : SyOp) (s : State) : Host.Outcome State Fault Refusal :=
  syStep .syFrame o (fun s => syDone .syFrame o (s.modMe fun k => k.modW fun w => { w with sfc := 0 })) s

/-- The phase of a descriptor opens (R301, R303); or cdata of DET_OVERLAP. -/
def State.openPhase (s : State) (c : CoreId) (x : Nat) : Core ⊕ Nat :=
  let k := s.core c
  match s.desc c x with
  | none => .inl k
  | some d =>
    match State.phaseClash k d with
    | some f => .inr (x + f * 4096)
    | none => .inl { k with ph := k.ph.set d.eng.toFin ⟨true, BitVec.ofNat 9 x, d.rd, d.wr⟩ }

/-- SY_PHASE (R303). A conflict found while the operation's bundle issues is an issue check; one found later stops it. -/
def execSyPhase (o : SyOp) (s : State) : Host.Outcome State Fault Refusal :=
  let x := o.imm.toNat % 512
  let es := ((s.desc s.cur x).map fun d => d.eng.toNat).toList
  syStep .syPhase o (fun s =>
    if es.all fun e => State.engineDone s.me e (s.me.f.seq + 7) then
      match s.openPhase s.cur x with
      | .inl k => syDone .syPhase o (s.setCore s.cur k)
      | .inr d => s.modMe fun k => (k.holdSy .syPhase o (.drained es) 0).faultHold (k.f.seq + 7)
          (some ⟨.detOverlap, 7, BitVec.ofNat 64 d⟩)
    else s.modMe fun k => k.holdSy .syPhase o (.drained es) 0) s

/-- An operation that ends the run (R235). -/
def endStep (t : SyTag) (o : SyOp) (s : State) : Host.Outcome State Fault Refusal :=
  syStep t o (fun s => s.modMe fun k => k.holdSy t o (.endRun t (k.readS o.sa)) (k.readS o.sa)) s

/-- SY_SUSPEND (R235, R236). -/
def execSySuspend (o : SyOp) (s : State) : Host.Outcome State Fault Refusal := endStep .sySuspend o s
/-- SY_SUSPEND_EV (R235, R236). -/
def execSySuspendEv (o : SyOp) (s : State) : Host.Outcome State Fault Refusal := endStep .sySuspendEv o s
/-- SY_SUSPEND_FE (R235, R236). -/
def execSySuspendFe (o : SyOp) (s : State) : Host.Outcome State Fault Refusal := endStep .sySuspendFe o s
/-- SY_YIELD of a user stream (R235, R236). -/
def execSyYield (o : SyOp) (s : State) : Host.Outcome State Fault Refusal := endStep .syYield o s
/-- SY_YIELD of a supervisor stream: the stopped stream is parked (R378). -/
def execSyYieldPark (o : SyOp) (s : State) : Host.Outcome State Fault Refusal := endStep .syYieldPark o s
/-- SY_RETIRE (R239). -/
def execSyRetire (o : SyOp) (s : State) : Host.Outcome State Fault Refusal := endStep .syRetire o s

/-- The record that sy.spawn creates (R238). DESIGN CHOICE (log 95): R275 and R279 name no order between a spawn and the record
it makes; here the record's accesses stand after those the spawner issued before it. -/
def State.spawn (s : State) (c : CoreId) (pc : W64) (stage : Nat) (ss : Vector W64 5) : State :=
  match s.recRun c with
  | none => s
  | some r => s.modD fun d => { d with
      nid := d.nid + 1
      recs := d.recs ++ [{ r with
        id := d.nid, pc := pc &&& 0xFFFFFFFFFFFF, hclu := (clusOf c).val, hpos := posOf c, hv := true, st := .runnable
        stage := r.stage + stage, wait := .none, s := ss, acq := [⟨0, c.val, (s.core c).f.seq + 7, none⟩], since := d.tick
        pin := false, walls := [], kidle := none, knext := none, ran := false, area := none }] }

/-- SY_SPAWN (R238): the record is made, or issue holds until its pool can take it. -/
def execSySpawn (o : SyOp) (s : State) : Host.Outcome State Fault Refusal :=
  holdStep .sySpawn o (fun s => .spawn (s.me.readS o.sa) (o.imm.toNat % 2) s.me.firstFive) (fun s => s.me.readS o.sa)
    (fun s => s.spawn s.cur (s.me.readS o.sa) (o.imm.toNat % 2) s.me.firstFive) s

/-- A region opens with its restart point (R240, R366). -/
def State.openRegion (s : State) (c : CoreId) (x : Nat) (ipc : W64) (seq : Nat) : State :=
  s.modCore c fun k => { k with rg :=
    ⟨true, BitVec.ofNat 9 x, ((s.desc c x).map Descriptor.wr).getD [], false, [], k.firstFive, ipc, seq⟩ }

/-- SY_IREG (R240, R366). -/
def execSyIreg (o : SyOp) (s : State) : Host.Outcome State Fault Refusal :=
  syStep .syIreg o (fun s => syDone .syIreg o (s.openRegion s.cur (o.imm.toNat % 512) s.me.f.ipc (s.me.f.seq + 7))) s

/-- SY_IEND (R240): the held lines are written in store order, and the region closes. A store whose page has gone meanwhile stands in
its queue again with its fault, and with it those behind it: issue holds until they have left it. -/
def execSyIend (o : SyOp) (s : State) : Host.Outcome State Fault Refusal :=
  syStep .syIend o (fun s => match s.commitRegion s.cur with
    | (s, none) => syDone .syIend o (s.modMe fun k => { k with rg := .reset })
    | (s, some _) => s.modMe fun k => k.holdSy .syIend o .iend 0) s

/-- sy.event of a value by the operation at a place in issue order (R237): the flag is set, with the records suspended on it
runnable, or cleared. It is a release. -/
def State.event (s : State) (c : CoreId) (a : W64) (seq : Nat) : State :=
  let n := a.toNat % 1024
  let rel : Release := ⟨n, c.val, seq, none⟩
  match (s.core c).car with
  | none => s
  | some id => s.modD fun d =>
    if a.getLsbD 63 then d.modCar id fun x => { x with
      evs := x.evs &&& ~~~BitVec.twoPow 1024 n, evRel := x.evRel.filter fun r => r.mark != n }
    else
      let d := d.modCar id fun x => { x with evs := x.evs ||| BitVec.twoPow 1024 n, evRel := x.evRel ++ [rel] }
      let rels := ((d.car id).map fun x => x.evRel.filter fun r => r.mark == n).getD []
      d.notice (fun r => r.car == id && r.wait == .ev (Fin.ofNat 1024 n)) fun _ => rels

/-- SY_EVENT (R237). -/
def execSyEvent (o : SyOp) (s : State) : Host.Outcome State Fault Refusal :=
  syStep .syEvent o (fun s => syDone .syEvent o (s.event s.cur (s.me.readS o.sa) (s.me.f.seq + 7))) s

/-- The exchange of mps.swap on a core, or its ENCODING as a cause of the supervisor stream (R178). -/
def State.swapNow (s : State) (c : CoreId) (ipc : W64) : State ⊕ State :=
  match swapHalves (s.core c) with
  | .inl k => .inl (s.setCore c k)
  | .inr d => .inr (s.stopSup c ⟨.encoding, 7, BitVec.ofNat 64 d⟩ true ipc)

/-- MPS_SWAP (R178). -/
def execMpsSwap (o : SyOp) (s : State) : Host.Outcome State Fault Refusal :=
  syStep .mpsSwap o (fun s =>
    if s.me.mx.q.isEmpty then
      match s.swapNow s.cur s.me.f.ipc with
      | .inl s => syDone .mpsSwap o s
      | .inr s => s
    else s.modMe fun k => k.holdSy .mpsSwap o .mpsSwap 0) s

/-! ### The end of a hold -/

/-- A record whose operation uses a feature that is now masked stops the resumed stream as it is reissued (R359, R370). -/
def State.maskFaults (s : State) (c : CoreId) : State :=
  let mask := ((s.fn c).map Fn.mask).getD 0
  let bad := fun (slot : SlotId) (body : W64) =>
    let k := s.core c
    ((decodeSlot false slot body (k.m.cwt.get (bodyCx body))).bind fun x => (featuresOf k x).find? fun f => mask.getLsbD f).map
      fun f => (⟨.featureMasked, slot.val, BitVec.ofNat 64 f⟩ : Trap)
  let fix := fun (slot : SlotId) (e : QEnt) =>
    let slot := match e.kind with
      | .op _ => slot
      | _ => 0
    { e with fault := e.fault.orElse fun _ => bad slot e.body }
  let hold := fun (h : Hold) => { h with fault := h.fault.orElse fun _ => bad (if h.slot = 0 then 0 else 7) h.body }
  let pend := fun (p : Pend) => if p.body = 0 then p else { p with fault := bad (unitSlot p.unit) p.body }
  s.modCore c fun k =>
    { k with
      q := { k.q with
        pend := k.q.pend.map pend, slb := k.q.slb.map pend
        ld := k.q.ld.map (fix 4), st := k.q.st.map (fix 5), at_ := k.q.at_.map (fix 5)
        cp := k.q.cp.map fun e => { e with fault := e.fault.orElse fun _ => bad 6 e.body }
        sh := k.q.sh.map fun e => { e with fault := e.fault.orElse fun _ => bad 6 e.body }
        hold := k.q.hold.map hold, shold := k.q.shold.map hold, khold := k.q.khold.map hold }
      mx := { k.mx with q := k.mx.q.map fun m => { m with fault := m.fault.orElse fun _ => bad 3 m.body } } }

/-- A bar.wait that had recorded no phase executes as it is reissued (R358): with PEND = 0 it passes. -/
def State.freshWait (s : State) (c : CoreId) : State :=
  let fix := fun (h : Hold) => match h.kind with
    | .barNew b =>
      let o := s.bar c b
      { h with kind := .barWait b (if o.pend = 0 then !o.phase else o.phase) }
    | _ => h
  s.modCore c fun k => k.modQ fun q => { q with hold := q.hold.map fix, shold := q.shold.map fix, khold := q.khold.map fix }

/-- SY operations of a list whose effect is neither a result nor a hold act as they are reissued (R358). -/
def State.reissueSy (s : State) (c : CoreId) (r : Rec) : State :=
  let done := fun (s : State) (g : Guarding) => s.modCore c fun k => k.arriveLater r.seq g.arr
  match r.kind, r.op (s.core c) with
  | 6, some (.sy .barTest o) => s.modCore c fun k => k.push { k.blank 4 9 r.body o.gd.arr with
      seq := r.seq, ipc := r.ipc, hnd := r.hnd
      dest := if r.hnd then .sh (o.sa.setWidth 4).toFin false else .s (physReg k.w.rb o.sa).toFin false
      val := (s.bar c o.bar.toFin).bits.setWidth 1024 }
  | 6, some (.sy .syEvent o) => done (s.event c r.w5 r.seq) o.gd
  | 6, some (.sy .syFrame o) => done (s.modCore c fun k => k.modW fun w => { w with sfc := 0 }) o.gd
  | 6, some (.sy .syIreg o) => done (s.openRegion c (o.imm.toNat % 512) r.ipc r.seq) o.gd
  | 6, some (.sy .syIend o) => done ((s.commitRegion c).1.modCore c fun k => { k with rg := .reset }) o.gd
  | _, _ => s

/-- The end of a hold whose condition holds (R231): by what it holds for. -/
def State.finishHold (s : State) (c : CoreId) (h : Hold) : State :=
  let off := fun (s : State) => s.modCore c fun k => k.modQ fun q => q.dropHold h.seq
  let cut := fun (t : State) => off (t.modD fun d => d.sample (clusOf c) 2 none [(s.core c).f.hcyc])
  let faulted := fun (s : State) (t : Trap) => s.modCore c fun k => k.faultHold h.seq (some { t with slot := 7 })
  match h.kind with
  | .barWait _ _ | .barNew _ => s
  | .iend => (s.modCore c fun k => { k with rg := .reset }).endHold c h
  | .fence _ | .waitb _ => s.endHold c h
  | .drained _ =>
    match s.openPhase c (h.sy.imm.toNat % 512) with
    | .inl k => (s.setCore c k).endHold c h
    | .inr d => faulted s ⟨.detOverlap, 7, BitVec.ofNat 64 d⟩
  | .spawn pc stage ss => (s.spawn c pc stage ss).endHold c h
  | .mpsSwap =>
    match s.swapNow c h.ipc with
    | .inl s => s.endHold c h
    | .inr s => cut s
  | .layout a =>
    let s := s.noteHandle c h.ipc (h.sy.imm.toNat % 4096)
    match s.layoutNow c h.ipc h.sy a with
    | .ok (s, some b) => (s.modCore c fun k => k.arrive h.seq (some b)).endHold c h
    | .ok (s, none) => s.endHold c h
    | .error t => faulted s t
  | .sup t a b =>
    match s.supAct c h.ipc t a b with
    | (s, none) => s.endHold c h
    | (s, some t) => cut (s.stopSup c t true h.ipc)
  | .resume a n =>
    match s.restore c a n h.ipc with
    | (s, none) => cut s
    | (t, some rs) =>
      let s := t.modD fun d => d.sample (clusOf c) 2 none [(s.core c).f.hcyc]
      let t := (((s.modCore c fun k => k.arriveLater h.seq h.arr).maskFaults c).freshWait c)
      let t := rs.foldl (fun (t : State) r => t.reissueSy c r) t
      (t.retrySeif (t.core c).w.ctxid).postSeif
  | .restart => ((s.sampleHold c).nextCycle c).restartRegion c
  | .endRun t a =>
    let s := off (s.sampleHold c)
    let s := match h.arr with
      | some b => s.modBar c b.toFin (Bar.arrive c.val h.seq true)
      | none => s
    (s.nextCycle c).leave c t h.sy a

/-- SY_HOLD_END (R231): the condition of a hold holds, and the hold ends at the end of this cycle. -/
def execSyHoldEnd (c : CoreId) (s : State) : Host.Outcome State Fault Refusal :=
  match s.holdEnds c with
  | some h => .next (s.finishHold c h)
  | none => notEnabled "SY_HOLD_END"

end Sys2Proof.Machine
end

