-- ==== Sys2Proof/Machine/Stops.lean ====
section
/-! DEFINITION. The steps that stop a core (R343 to R347, R349, R367 to R369). Taking the stop itself is State.stopUser and
State.stopSup. -/

namespace Sys2Proof.Machine
open Sys2Proof

/-- A core stopped in a frozen cycle: what this cycle's control and barrier operations do, which no record holds, is done with
the stop. -/
def State.settleControl (s : State) (c : CoreId) : State :=
  let now := (s.core c).q.pend.filter fun p => decide (p.due ≤ (s.core c).f.cyc) && (match p.dest with
    | .sw _ | .bar _ _ | .fmask _ => true
    | _ => false)
  now.foldl (fun (s : State) p => s.writeBack c p) s

/-- Idle cycles that a stop leaves to the next bundle (R353): the rest of a frozen cycle counts as one. -/
def State.idleAt (s : State) (c : CoreId) : Nat :=
  s.idleOwed c + (if (s.core c).f.at_ = .after then 1 else 0)

/-- EXECUTION_FAULT_STOP (R345, R349): at a bundle boundary, or at once if the core is frozen. A break or syscall whose
cycle cannot end is taken first (R135). -/
def execExecutionFaultStop (c : CoreId) (s : State) : Host.Outcome State Fault Refusal :=
  let k := s.core c
  if k.w.pl != 0 || !(k.atBoundary || (k.active && k.f.frozen)) then notEnabled "EXECUTION_FAULT_STOP"
  else
    match k.firstFault with
    | none => notEnabled "EXECUTION_FAULT_STOP"
    | some (_, t) =>
      let s := if k.f.frozen then s.settleControl c else s
      let idle := s.idleAt c
      match k.f.brk with
      | some b => .next (s.trap c b false k.f.pc none idle)
      | none => .next (s.trap c t true k.f.pc none idle)

/-- The entry that met a fault leaves its queue. -/
def Core.dropFaulted (k : Core) (seq : Nat) : Core :=
  { k with
    q := { k.q with
      ld := k.q.ld.filter fun e => e.seq != seq
      st := k.q.st.filter fun e => e.seq != seq
      at_ := k.q.at_.filter fun e => e.seq != seq
      cp := k.q.cp.filter fun e => e.seq != seq
      sh := k.q.sh.filter fun e => e.seq != seq
      hold := k.q.hold.filter fun h => h.seq != seq
      shold := k.q.shold.filter fun h => h.seq != seq }
    mx := { k.mx with q := k.mx.q.filter fun m => m.seq != seq } }

/-- The bundle that a supervisor's execution cause names (R139, R347): the operation's, or for a cwt.rd store the bundle at
the boundary. -/
def Core.causePc (k : Core) (seq : Nat) : W64 :=
  match (k.q.ld ++ k.q.st ++ k.q.at_).find? fun e => e.seq == seq with
  | some e => if e.kind = .cwtRd then k.f.pc else e.ipc
  | none =>
    ((((k.q.cp.find? fun e => e.seq == seq).map Copy.ipc).orElse fun _ =>
      (k.q.sh.find? fun e => e.seq == seq).map Shuf.ipc).orElse fun _ =>
      (k.holds.find? fun h => h.seq == seq).map Hold.ipc).getD k.f.pc

/-- SUPERVISOR_CAUSE (R347): an operation of the supervisor stream met a fault; the stream goes on at SVEC + 64, or, while it
handles a cause of its own, the interface falls. -/
def execSupervisorCause (c : CoreId) (s : State) : Host.Outcome State Fault Refusal :=
  let k := s.core c
  if k.w.pl = 0 || !(k.atBoundary || (k.active && k.f.frozen)) then notEnabled "SUPERVISOR_CAUSE"
  else
    match k.firstFault with
    | none => notEnabled "SUPERVISOR_CAUSE"
    | some (seq, t) =>
      let s := if k.holds.any fun h => h.seq == seq then s.sampleHold c else s
      .next (((s.modCore c fun k => k.dropFaulted seq).stopSup c t true (k.causePc seq)).thaw c)

/-- A stop between bundles that no operation gave (R343). -/
def State.boundaryStop (s : State) (c : CoreId) (x : Cause) : State :=
  s.trap c ⟨x, 0, 0⟩ false (s.core c).f.pc none (s.idleOwed c)

/-- The run is to end as R367 says: it waits as R235 waits. What stood before the next bundle is dropped with the run. -/
def Core.beginRestart (k : Core) : Core :=
  { k with
    q := { k.q with hold := some ⟨.restart, k.f.seq + 8, k.f.pc, 0, 0, 0, none, false, none⟩ }
    f := { k.f with held := false, hcyc := 0, next := none }
    preempt := false
    expired := false }

/-- The restart begins: a hold that it ends is sampled (R293). -/
def State.beginRestart (s : State) (c : CoreId) : State := (s.sampleCut c).modCore c Core.beginRestart

/-- A core of a user stream stands where a slice end or a pre-emption is taken (R345). -/
def Core.mayPreempt (k : Core) : Bool :=
  k.atBoundary && k.w.pl == 0 && k.firstFault.isNone && k.seif.isNone && !k.restartWaits

/-- SLICE_EXPIRY (R367, R368): PREEMPT; or IREG_OVERFLOW in a region that has overflowed; or the region's restart. -/
def execSliceExpiry (c : CoreId) (s : State) : Host.Outcome State Fault Refusal :=
  let k := s.core c
  if !k.mayPreempt || !k.expired then notEnabled "SLICE_EXPIRY"
  else if !k.rg.opened then .next (s.boundaryStop c .preempt)
  else if k.rg.unbuf then .next (s.boundaryStop c .iregOverflow)
  else .next (s.beginRestart c)

/-- PREEMPT (R369): a hold of the context, or the retirement of the cluster, stops the core, or restarts its region. -/
def execPreempt (c : CoreId) (s : State) : Host.Outcome State Fault Refusal :=
  let k := s.core c
  if !k.mayPreempt || !k.preempt then notEnabled "PREEMPT"
  else if k.rg.opened && !k.rg.unbuf then .next (s.beginRestart c)
  else .next (s.boundaryStop c .preempt)

/-- The home of a global address may be on another device. DESIGN CHOICE: no address of the map of R382 and R423 is another device's, so
that only a location of a reduction window has such a home (log 7). -/
def State.offDevice (s : State) (c : CoreId) (a : Nat) : Bool :=
  match (s.ctxOf c).bind fun x => (s.d.walk x a walkLevels x.ptb.toNat) with
  | some l => l.rwin && decide (l.base + a % 2 ^ l.bits < Config.devBytes)
  | none => false

/-- The first address off the device that an entry of the load, store or atomic queue reaches; a prefetch never faults (R207). -/
def State.offEntry (s : State) (c : CoreId) (e : QEnt) : Option Nat :=
  let all := match e.space with
    | .glob => [e.addr.toNat, e.addr.toNat + e.size - 1]
    | .handle =>
      match s.handle c e.handle with
      | .error _ => []
      | .ok h =>
        let (c0, c1, c2, c3) := coords e.addr
        ((List.range ((h.count e.size).getD 0)).filter fun i => h.inside (c0 + i) c1 c2 c3).filterMap fun i =>
          (s.elementVa c h (c0 + i) c1 c2 c3).toOption
    | _ => []
  if e.kind = .op .ldPf then none else all.find? fun a => s.offDevice c a

/-- The first address off the device that the next row of a matrix call reaches. -/
def State.offCall (s : State) (c : CoreId) (m : MxCall) : Option Nat :=
  match decodeMicro ((s.core c).mx.mic.get m.upc) with
  | some (.drain u) => if u.space = .glob then [(m.rowAddr u.ap u.sp m.row).toNat].find? fun a => s.offDevice c a else none
  | u =>
    match u.bind Micro.fetched with
    | none => none
    | some o =>
      if o.rows ≤ m.row + m.rows.length then none
      else
        match s.rowSpots c m o (m.row + m.rows.length) with
        | .error _ => none
        | .ok xs => (xs.filterMap fun x => match x with
            | .at_ .glob a _ => some a
            | _ => none).find? fun a => s.offDevice c a

/-- FABRIC_TIMEOUT (R343): an access whose home is on another device is not complete in time. -/
def execFabricTimeout (c : CoreId) (seq : Nat) (s : State) : Host.Outcome State Fault Refusal :=
  let k := s.core c
  let stop := notEnabled "FABRIC_TIMEOUT"
  match (k.q.ld ++ k.q.st ++ k.q.at_).find? fun e => e.seq == seq && e.fault.isNone && e.ret == .none with
  | some e =>
    match s.offEntry c e with
    | some a => .next (s.entryFault c e (trapAt .fabricTimeout a))
    | none => stop
  | none =>
    match k.q.cp.find? fun e => e.seq == seq && e.fault.isNone && e.begun with
    | some e =>
      let d := e.dst.toNat + e.prog
      let r := e.src.toNat + e.prog
      if !e.fill && e.ssp == .glob && s.offDevice c r then .next (s.modCore c fun k => k.copyFault e (trapAt .fabricTimeout r))
      else if e.dsp == .glob && s.offDevice c d then .next (s.modCore c fun k => k.copyFault e (trapAt .fabricTimeout d))
      else stop
    | none =>
      match k.mx.q.head?.filter fun m => m.seq == seq && m.fault.isNone && m.rowFault.isNone && !m.fin with
      | some m =>
        match s.offCall c m with
        | some a => .next (s.modCore c fun k => k.modHead fun m => { m with rowFault := some (trapAt .fabricTimeout a) })
        | none => stop
      | none => stop

end Sys2Proof.Machine
end

