-- ==== Sys2Proof/Machine/Launch.lean ====
section
/-! DEFINITION. Launch queues and their records (R317 to R321), kernel images and the library routines (R322, R323, R198),
admission (R324, R325), completion words and the end of a caravan (R326, R339), and the expansion of records (R327, R330,
R331). -/

namespace Sys2Proof.Machine
open Sys2Proof

/-! ### Completion words -/

namespace State

/-- A completion word (R326): one 8-byte write at supervisor level through the tree of the context that the queue's CTX names.
None where the page is locked by a move; a write that cannot be made sets ERR, and CMPL where it faults. DEDUCED: a word at an
address that is no multiple of 8, which R321 rejects, faults too (log 108). -/
def completeWrite (s : State) (q : Fin 64) (addr v : Nat) : Option State :=
  if addr = 0 then some s
  else
    match (s.d.ctx s.d.qs[q].ctx).filter fun x => x.fn == s.d.qs[q].fn with
    | none => some (s.modD fun d => d.queueErr q)
    | some x =>
      if addr % 8 ≠ 0 then some (s.modD fun d => (d.queueErr q).report x.fn 2)
      else
      match s.d.translate x addr .write false with
      | .error _ => some (s.modD fun d => (d.queueErr q).report x.fn 2)
      | .ok p =>
        if s.d.gone p.pa 8 then some (s.modD fun d => (d.queueErr q).report x.fn 2)
        else if s.d.locked p.pa 8 then none
        else some ((s.modD fun d => (d.ask 16 p.pa 8).writeMem p.key p.pa (bytesOf 8 v)).textWritten [(p.pa, 8)])

/-- A failure word with its reason, and ERR (R326). -/
def failLaunch (s : State) (q : Fin 64) (r : BitVec 1024) (reason : Nat) : Option State :=
  (s.completeWrite q (field r.toNat 576 64) (2 ^ 63 + reason)).map fun s => s.modD fun d => d.queueErr q

end State

/-! ### Commit -/

/-- The checks of a record's own words (R321, reason 1). -/
def badRecord (d : Dev) (r : BitVec 1024) : Bool :=
  let f := fun (p w : Nat) => field r.toNat p w
  let pin := f 116 4
  let clu : Fin 32 := Fin.ofNat 32 (f 122 2 * 8 + f 124 3)
  f 48 16 != 0 || f 707 61 != 0 || f 832 192 != 0 || f 120 2 == 3 || (decide (9 < pin) && pin != 15)
  || f 0 48 % 128 != 0 || f 576 64 % 8 != 0
  || f 448 32 % 128 != 0 || f 480 32 % 128 != 0 || decide (f 480 32 < f 448 32) || decide (Config.spadBytes < f 480 32)
  || decide (1048576 < (f 64 16 + 1) * (f 80 16 + 1) * (f 96 16 + 1))
  || (pin != 15 && f 120 2 == 2 && f 127 1 == 0 && d.clus[clu].retired)

/-- Why a committing record is rejected (R321). -/
def rejectReason (d : Dev) (q : Fin 64) (r : BitVec 1024) : Option Nat :=
  let x := d.qs[q]
  if badRecord d r then some 1
  else if !x.en || !d.ctxIs x.ctx x.fn false then some 6
  else if Config.launchDepth ≤ x.recs.length then some 7
  else none

namespace State

/-- A record commits at its queue, or is rejected (R318, R319, R321); none where its failure word must wait. OVF is set where it
arrived at a full queue, whatever it is rejected for. -/
def commitRecord (s : State) (q : Fin 64) (rank : Nat) (r : BitVec 1024) : Option State :=
  let full := decide (Config.launchDepth ≤ s.d.qs[q].recs.length)
  match rejectReason s.d q r with
  | some x =>
    (s.failLaunch q r x).map fun s =>
      if full then s.modD fun d => { d with qs := d.qs.set q { d.qs[q] with ovf := true } } else s
  | none => some (s.modD fun d => { d with
      order := d.order + 1
      qs := d.qs.set q { d.qs[q] with recs := d.qs[q].recs ++ [⟨r, d.tick, d.order, rank, false⟩] } })

/-- A discarded write to a launch region: ERR in its queue, or XWIN of the function that owns the queue (R319, R400). -/
def badLaunch (s : State) (f : FnId) (q : Fin 64) : State :=
  if s.d.qs[q].fn = f then s.modD fun d => d.queueErr q else s.modD fun d => d.report d.qs[q].fn 64

/-- The launch window of a function takes records (R394, R396). -/
def takesLaunches (s : State) (f : FnId) (q : Fin 64) : Bool :=
  s.d.qs[q].fn == f && (s.d.fns[f].iface == .unlocked || s.d.fns[f].iface == .run)

end State

/-- A next state, or a step that has to wait. -/
def orWait (n : String) (s : Option State) : Host.Outcome State Fault Refusal :=
  match s with
  | some s => .next s
  | none => notEnabled n

/-- Arrivals of one cycle at a point come in the order of their ranks: none follows one of a greater rank (R319, R393). A queue is
point q, the configuration point of function f is 64 + f. -/
def inTurn (n : String) (point rank : Nat) (s : State) (k : State → Host.Outcome State Fault Refusal) :
    Host.Outcome State Fault Refusal :=
  if (tabGet s.d.ranks point).getD 0 ≤ rank then k (s.modD fun d => { d with ranks := tabSet d.ranks point rank })
  else notEnabled n

/-- A function-level reset of a function is under way: what arrives for it is discarded (R433). -/
def State.inFlr (s : State) (f : FnId) : Bool := s.d.flr.contains f.val

/-- LAUNCH_RECORD_WRITE (R319, R321): in its cycle the host's record commits after a write of the queue's binding (R341) and before
those of Erg ports. -/
def execLaunchRecordWrite (f : FnId) (q : Fin 64) (r : BitVec 1024) (s : State) : Host.Outcome State Fault Refusal :=
  inTurn "LAUNCH_RECORD_WRITE" q.val 1 s fun s =>
    if s.inFlr f then .next s
    else if s.takesLaunches f q then orWait "LAUNCH_RECORD_WRITE" (s.commitRecord q 1 r) else .next (s.badLaunch f q)

/-- LAUNCH_HALF_WRITE (R319): a first half is kept, the latest one of its region; a second half pairs with it and commits. DESIGN
CHOICE: a first half that has paired is used up, and pairs with no further second half (log 109). -/
def execLaunchHalfWrite (f : FnId) (q : Fin 64) (second : Bool) (x : BitVec 512) (s : State) :
    Host.Outcome State Fault Refusal :=
  inTurn "LAUNCH_HALF_WRITE" q.val 1 s fun s =>
    if s.inFlr f then .next s
    else if !s.takesLaunches f q then .next (s.badLaunch f q)
    else if !second then .next (s.modD fun d => d.modFn f fun y => { y with halves := tabSet y.halves q.val x })
    else
      match tabGet s.d.fns[f].halves q.val with
      | none => .next (s.badLaunch f q)
      | some a =>
        let s := s.modD fun d => d.modFn f fun y => { y with halves := tabDel y.halves q.val }
        orWait "LAUNCH_HALF_WRITE" (s.commitRecord q 1 (BitVec.ofNat 1024 (a.toNat + x.toNat * 2 ^ 512)))

/-- ERG_LAUNCH_MESSAGE (R319): it commits where the queue takes records from Erg ports; in its cycle after the host's record and
those of ports with lower numbers. -/
def execErgLaunchMessage (port : Fin 16) (q : Fin 64) (r : BitVec 1024) (s : State) : Host.Outcome State Fault Refusal :=
  inTurn "ERG_LAUNCH_MESSAGE" q.val (port.val + 2) s fun s =>
    if s.inFlr s.d.qs[q].fn then .next s
    else if s.d.qs[q].erg && s.takesLaunches s.d.qs[q].fn q then orWait "ERG_LAUNCH_MESSAGE" (s.commitRecord q (port.val + 2) r)
    else .next (s.modD fun d => d.queueErr q)

/-- BAD_LAUNCH_WRITE (R319). -/
def execBadLaunchWrite (f : FnId) (q : Fin 64) (s : State) : Host.Outcome State Fault Refusal :=
  .next (if s.inFlr f then s else s.badLaunch f q)

/-! ### Library routines -/

/-- A routine of the firmware (R198): its two parts, with the targets of mu.loop counted from the first word of the copy. -/
structure Lib where
  load : List Micro
  comp : List Micro
  mode : Nat
  mask : BitVec 16
  deriving DecidableEq, Repr

/-- The latch load of a library routine: half 0, parameters mp1 and mp3 (R198). -/
def libLat (sp : Space) (kind : BitVec 2) : List Micro := [.lat ⟨false, sp, 1, 3, kind⟩, .end_]

/-- The block operation of a library routine: half 0, offset 0, parameters mp0 and mp2, AM slot (R198). -/
def libMma (k : MmaKind) (sp : Space) (sg : Bool) : List Micro := [.mma k ⟨0, false, 0, sp, 0, 2, false, 0, sg, sg⟩, .end_]

/-- The drain of a library routine: parameters mp6 and mp7, size 64 (R198). -/
def libDrain (f : Fmt) : Lib := ⟨[], [.drain ⟨f, .loc, 6, 7, 0, false⟩, .end_], 0, 0⟩

/-- The rows of R198. -/
def lib (row : Nat) : Option Lib :=
  match row with
  | 0 => some ⟨libLat .glob 0, libMma .e4m3 .glob false, 1, 15⟩
  | 1 => some ⟨libLat .glob 0, libMma .i8 .glob true, 3, 15⟩
  | 2 => some ⟨libLat .glob 1, libMma .bf16 .glob false, 2, 15⟩
  | 3 => some ⟨libLat .glob 2, libMma .bf16q .glob false, 2, 1⟩
  | 4 => some ⟨libLat .handle 3, libMma .ph .handle false, 4, 15⟩
  | 5 => some ⟨libLat .glob 0, [.mma .e4m3 ⟨0, false, 0, .handle, 0, 2, true, 4, false, false⟩, .end_], 1, 15⟩
  | 6 => some ⟨[], [.lat ⟨false, .glob, 1, 3, 0⟩, .mma .e4m3 ⟨3, false, 0, .glob, 0, 2, false, 0, false, false⟩,
      .adv ⟨0, none, 128⟩, .adv ⟨1, some 5, 0⟩, .loop ⟨4, 0⟩, .end_], 1, 15⟩
  | 7 => some (libDrain .bf16)
  | 8 => some (libDrain .e4m3)
  | _ => none

/-- A word of a copy that begins at an index (R322). -/
def libWord (first : Nat) : Micro → W64
  | .loop u => encodeMicro (.loop { u with t := u.t + BitVec.ofNat 11 first })
  | u => encodeMicro u

/-- The routine entry of a copy (R198, R322). DESIGN CHOICE: the spec gives no order of the two parts in the reserved words, and
the load part lies first (log 97). -/
def Lib.entry (l : Lib) (first : Nat) : W64 :=
  let lv := !l.load.isEmpty
  BitVec.ofNat 64 (pack routineLayout [if lv then first else 0, bit lv, first + l.load.length, 1, l.mode, 1, l.mask.toNat, 0])

/-! ### Kernel images -/

/-- A kernel image as the dispatcher read it (R322). -/
structure KernelImage where
  det : Bool
  major : Nat
  minor : Nat
  ent : Nat                -- address of the first bundle
  cwt : Sparse 256
  rent : Sparse 64
  mic : Sparse 64
  deriving DecidableEq, Repr

/-- The header's fields, up to the last zero field (R322). -/
def headerLayout : List Nat := [32, 8, 8, 1, 15, 32, 32, 32, 10, 22, 32, 12, 20, 32, 8, 728]

/-- An entry of the library list fills its routine (R322); none where it is malformed. -/
def fillLib (st : Sparse 64 × Sparse 64) (w : W64) : Option (Sparse 64 × Sparse 64) :=
  match unpack [4, 4, 8, 11, 37] w.toNat, lib (field w.toNat 0 4) with
  | [_, z0, e, first, z1], some l =>
    let ws := (l.load ++ l.comp).map (libWord first)
    if z0 = 0 ∧ z1 = 0 ∧ first + ws.length ≤ 2048 then some (st.1.set e (l.entry first), st.2.write first ws) else none
  | _, _ => none

/-- The parts of an image behind its header: the text's start, control words, routine entries, micro-words and library list; none
where a field of the header is out of range (R322, R324). -/
def imageParts (kimg : Nat) (h : List Byte) : Option (List (Nat × Nat)) :=
  match unpack headerLayout (natOf h) with
  | [magic, _, _, _, z0, toff, _tlen, coff, ccnt, z1, moff, mcnt, z2, loff, lcnt, z3] =>
    if magic = 0x5452414C ∧ z0 = 0 ∧ z1 = 0 ∧ z2 = 0 ∧ z3 = 0 ∧ toff % 128 = 0 ∧ coff % 32 = 0 ∧ ccnt ≤ 512 ∧ moff % 8 = 0
        ∧ mcnt ≤ 2048 ∧ loff % 8 = 0 ∧ lcnt ≤ 9 then
      some [(kimg + toff, 4), (kimg + coff, 32 * ccnt), (kimg + moff, 2048), (kimg + moff + 2048, 8 * mcnt), (kimg + loff, 8 * lcnt)]
    else none
  | _ => none

/-- Bytes of an image, read through the tree of its context by the path of text (R322, R324, R391). The error is the reason of the
failure, or none where a page they need is locked by a move. -/
def State.imageGet (s : State) (x : Ctx) (va n : Nat) : Except (Option Nat) (List Byte) :=
  match s.d.placesConv x true .fetch 3 va n with
  | .ok ps => .ok (ps.flatMap fun p => s.d.readMem p.1.key p.1.pa p.2)
  | .error .late => .error none
  | .error (.bad _) => .error (some 2)

/-- An image read and checked (R322, R324). -/
def State.readImage (s : State) (x : Ctx) (kimg : Nat) : Except (Option Nat) KernelImage := do
  let words := fun {w : Nat} (n : Nat) (bs : List Byte) => wordsOf w n (bs.length / n) bs
  let h ← s.imageGet x kimg 128
  let f := field (natOf h)
  match imageParts kimg h with
  | none => .error (some 3)
  | some ps =>
    match ← ps.mapM fun p => s.imageGet x p.1 p.2 with
    | [_, cw, ro, mi, li] =>
      let st : Sparse 64 × Sparse 64 := (Sparse.write [] 0 (words 8 ro), Sparse.write [] 0 (words 8 mi))
      match (words (w := 64) 8 li).foldl (fun st w => st.bind fun y => fillLib y w) (some st) with
      | none => .error (some 3)
      | some (e, m) =>
        if (storeFails e m).isSome then .error (some 3)
        else pure ⟨f 48 1 == 1, f 40 8, f 32 8, kimg + f 64 32, Sparse.write [] 0 (words 32 cw), e, m⟩
    | _ => .error (some 3)

/-- The parts of an image that were read are charged as traffic of no caravan, and pages pending scrub are scrubbed first (R337, R338,
R415), up to the first that cannot be read. -/
def State.noteParts (s : State) (x : Ctx) : List (Nat × Nat) → State
  | [] => s
  | (va, n) :: ps =>
    match s.d.placesConv x true .fetch 3 va n with
    | .error _ => s
    | .ok qs => (s.modD fun d => qs.foldl (fun d q => (d.ask 16 q.1.pa q.2).settlePages q.1.pa q.2) d).noteParts x ps

/-- What reading an image leaves behind. -/
def State.noteImage (s : State) (x : Ctx) (kimg : Nat) : State :=
  match s.imageGet x kimg 128 with
  | .ok h => s.noteParts x ((kimg, 128) :: (imageParts kimg h).getD [])
  | .error _ => s

/-! ### Credits -/

/-- The dispatcher weight of a slot; a slot made invalid counts as 1 (R336, R341). -/
def Dev.weightOf (d : Dev) (m : Fin 16) : Nat := if d.slots[m].valid then d.slots[m].dw.toNat else 1

/-- The choice among some slots by credits (R324, R333, R334): every eligible slot's credit is refilled where none of them has any
left; the greatest first, the lowest number on a tie; the chosen slot's credit falls by one. DESIGN CHOICE: a credit of 0 stays
at 0 (log 98). -/
def Dev.chooseSlot (d : Dev) (credits : Vector Nat 16) (elig among : List (Fin 16)) : Option (Fin 16 × Vector Nat 16) :=
  let cr := if elig.all fun m => credits[m] == 0 then elig.foldl (fun v m => v.set m (d.weightOf m)) credits else credits
  let best := among.foldl (fun (b : Option (Fin 16)) m => match b with
    | none => some m
    | some y => if cr[y] < cr[m] ∨ (cr[y] = cr[m] ∧ m < y) then some m else b) none
  best.map fun m => (m, cr.set m (cr[m] - 1))

/-- The element that comes first, of a list. -/
def firstBy {α : Type} (lt : α → α → Bool) (xs : List α) : Option α :=
  xs.foldl (fun b x => match b with
    | none => some x
    | some y => if lt x y then some x else b) none

/-! ### Admission -/

/-- A supervisor copy into the weight store of a die is outstanding (R218). -/
def State.wsCopy (s : State) (die : Fin 4) : Bool :=
  (List.finRange 320).any fun c => dieOf c == die && (s.core c).q.cp.any fun x => x.dsp == .ws

/-- The die of a cluster. -/
def dieOfClus (cl : Nat) : Fin 4 := Fin.ofNat 4 (cl / 8)

/-- The clusters that may be the home of a launch (R320, R330): that of the record, or any that the dispatcher may choose:
one that may run the context, on a die with no supervisor copy into its weight store where the span is narrower than the
device; any cluster where none may run it. -/
def State.homes (s : State) (q : LQueue) (r : BitVec 1024) : List Nat :=
  if field r.toNat 127 1 = 0 then [field r.toNat 122 2 * 8 + field r.toNat 124 3]
  else
    let sec := ((s.d.ctx q.ctx).map Ctx.sec).getD false
    let fit := (List.finRange 32).filter fun c =>
      let x := s.d.clus[c]
      x.owner == some q.fn && x.sec == sec && !x.retired
    let all := if fit.isEmpty then List.finRange 32 else fit
    (all.filter fun c => recSpan r == 0 || !s.wsCopy (dieOfClus c.val)).map Fin.val

/-- The head record of a queue may be admitted (R324, R434). -/
def State.mayAdmit (s : State) (q : Fin 64) : Bool :=
  let x := s.d.qs[q]
  match x.recs with
  | [] => false
  | p :: _ =>
    x.en && !s.d.admHold && decide (s.d.cars.length < Config.maxCaravans) && s.d.slots[x.slot.toFin].valid
    && (field p.rec_.toNat 705 1 == 0 || !s.d.cars.any fun c => c.queue == q)
    && ((s.homes x p.rec_).any fun cl =>
      (List.finRange 4).all fun die => !((recSpan p.rec_ == 0 || die == dieOfClus cl) && s.wsCopy die))

/-- A head record has waited its limit, and is not yet ahead of the others (R324). -/
def Dev.headAged (d : Dev) (q : Fin 64) : Bool :=
  match d.qs[q].recs with
  | p :: _ => d.qs[q].en && !p.aged && decide (p.commit + Config.ageLimit ≤ d.tick)
  | [] => false

/-- A record committed before another: in an earlier cycle, or in the same one first under R319 (R324). -/
def Pending.before (a b : Pending) : Bool :=
  decide (a.commit < b.commit) || (a.commit == b.commit && (decide (a.rank < b.rank) || (a.rank == b.rank && decide (a.order < b.order))))

/-- The queue whose head record is admitted next, with the device's credits after it (R324, R334). -/
def State.nextAdmit (s : State) : Option (Fin 64 × Vector Nat 16) :=
  let heads := (List.finRange 64).filter fun q => s.mayAdmit q
  let lt := fun (a b : Fin 64) => match s.d.qs[a].recs.head?, s.d.qs[b].recs.head? with
    | some x, some y => x.before y
    | _, _ => false
  match firstBy lt (heads.filter fun q => ((s.d.qs[q].recs.head?).map Pending.aged).getD false) with
  | some q => some (q, s.d.credD)
  | none =>
    let top := heads.filter fun q => heads.all fun p => s.d.qs[p].prio ≤ s.d.qs[q].prio
    let slots := fun (qs : List (Fin 64)) => (List.finRange 16).filter fun m => qs.any fun q => s.d.qs[q].slot.toFin == m
    (s.d.chooseSlot s.d.credD (slots heads) (slots top)).bind fun (m, cr) =>
      (firstBy lt (top.filter fun q => s.d.qs[q].slot.toFin == m)).map fun q => (q, cr)

/-- The lowest number that names no live caravan (R327). -/
def Dev.freeCar (d : Dev) : Nat := ((List.range 65536).find? fun i => d.cars.all fun c => c.id != i).getD 0

/-- Why an image is not launched (R324), in the order of the table; else the image. -/
def State.admitImage (s : State) (q : Fin 64) (r : BitVec 1024) : Except (Option Nat) (Ctx × KernelImage) :=
  match (s.d.ctx s.d.qs[q].ctx).filter fun x => x.fn == s.d.qs[q].fn with
  | none => .error (some 6)
  | some x => do
    let im ← s.readImage x (field r.toNat 0 48)
    if im.det && s.d.fns[x.fn].mask.getLsbD 7 then .error (some 4)
    else if im.major ≠ 1 ∨ 0 < im.minor then .error (some 5)
    else pure (x, im)

/-- The caravan of an admitted record (R327). -/
def State.newCaravan (s : State) (q : Fin 64) (r : BitVec 1024) (x : Ctx) (im : KernelImage) : Caravan :=
  let l := s.d.qs[q]
  let hs := (s.homes l r).filter fun cl => recSpan r == 0 || !s.wsCopy (dieOfClus cl)
  let home := hs.getD ((Config.freeWord s.fresh 0).toNat % hs.length) 0
  { id := s.d.freeCar, queue := q, slot := l.slot, prio := l.prio, ctx := x.id, rec_ := r, die := dieOfClus home, clus := home
    ent := BitVec.ofNat 64 im.ent, det := im.det, cwt := im.cwt, ment := im.rent, mmic := im.mic
    bars := Vector.replicate 16 .zero, evs := 0, evRel := [], next := 0, order := s.d.order }

/-- ADMISSION (R324 to R327): the head record that is next leaves its queue; its image is checked, and its caravan made or
its failure written. A head record at its age limit is placed ahead first. -/
def execAdmission (s : State) : Host.Outcome State Fault Refusal :=
  if (List.finRange 64).any s.d.headAged then notEnabled "ADMISSION"
  else
    match s.nextAdmit with
    | none => notEnabled "ADMISSION"
    | some (q, cr) =>
      match s.d.qs[q].recs with
      | [] => notEnabled "ADMISSION"
      | p :: ps =>
        let read := match (s.d.ctx s.d.qs[q].ctx).filter fun x => x.fn == s.d.qs[q].fn with
          | some x => s.noteImage x (field p.rec_.toNat 0 48)
          | none => s
        let taken := read.modD fun d => { d with credD := cr, qs := d.qs.set q { d.qs[q] with recs := ps } }
        match s.admitImage q p.rec_ with
        | .error none => notEnabled "ADMISSION"
        | .error (some r) => orWait "ADMISSION" (taken.failLaunch q p.rec_ r)
        | .ok (x, im) =>
          .next (taken.modD fun d => { d with order := d.order + 1, cars := d.cars ++ [s.newCaravan q p.rec_ x im] })

/-- ADMISSION_ESCALATION (R324): a head record that has waited 2^20 cycles goes ahead of all others. -/
def execAdmissionEscalation (q : Fin 64) (s : State) : Host.Outcome State Fault Refusal :=
  if s.d.headAged q then
    .next (s.modD fun d => { d with qs := d.qs.set q { d.qs[q] with recs := match d.qs[q].recs with
      | p :: ps => { p with aged := true } :: ps
      | [] => [] } })
  else notEnabled "ADMISSION_ESCALATION"

/-! ### Expansion -/

/-- Extents of d, c and k (R320). -/
def extents (r : BitVec 1024) : Nat × Nat × Nat :=
  (field r.toNat 64 16 + 1, field r.toNat 80 16 + 1, field r.toNat 96 16 + 1)

/-- The i-th record of a caravan (R327, R330). -/
def Caravan.record (x : Caravan) (i id tick : Nat) : CRec :=
  let r := x.rec_.toNat
  let (_, ec, ek) := extents x.rec_
  let d := i / (ec * ek)
  let c := i / ek % ec
  let k := i % ek
  let pin := field r 116 4
  let hcl := x.clus % 8
  let hclu := match recSpan x.rec_ with
    | 2 => x.clus
    | 1 => x.die.val * 8 + (hcl + c) % 8
    | _ => (x.die.val + d) % 4 * 8 + (hcl + c) % 8
  { id := id, pc := x.ent, hclu := hclu
    hpos := if recSpan x.rec_ = 2 ∧ pin ≠ 15 then (pin + k) % 10 else k % 10
    hv := true, st := .runnable, d := d, c := c, k := k, stage := field r 112 4, pri := x.prio, msl := x.slot, ctx := x.ctx
    car := x.id, wait := .none
    s := #v[BitVec.ofNat 64 (r / 2 ^ 128), BitVec.ofNat 64 (r / 2 ^ 192), BitVec.ofNat 64 (r / 2 ^ 256),
      BitVec.ofNat 64 (r / 2 ^ 320), BitVec.ofNat 64 (r / 2 ^ 384 + d * 2 ^ 32 + c * 2 ^ 16 + k)]
    acq := [], walls := [], kidle := none, knext := none, since := tick, pin := pin != 15 && i == 0, ran := false, area := none }

/-- The records of a caravan that expansion has still to make. -/
def Caravan.unexpanded (x : Caravan) : Nat :=
  let (ed, ec, ek) := extents x.rec_
  ed * ec * ek - x.next

/-- RECORD_EXPANSION (R327, R331): the next record of a caravan, where its pool holds fewer than 3,072. -/
def execRecordExpansion (car : Nat) (s : State) : Host.Outcome State Fault Refusal :=
  match s.d.car car with
  | none => notEnabled "RECORD_EXPANSION"
  | some x =>
    let r := x.record x.next s.d.nid s.d.tick
    if x.unexpanded = 0 ∨ Config.poolExpand ≤ s.d.poolCount r.hclu r.stage then notEnabled "RECORD_EXPANSION"
    else .next (s.modD fun d => { (d.modCar car fun x => { x with next := x.next + 1 }) with
      nid := d.nid + 1, recs := d.recs ++ [r] })

/-! ### The end of a caravan -/

/-- The cores that hold lines of a context and run nothing of it, where no caravan of the context is left, hold them no
longer (R248). -/
def State.releaseLines (s : State) : State :=
  { s with cores := s.cores.map fun k => match k.lineCtx with
      | some x => if k.car.isNone && !(s.d.cars.any fun c => c.ctx == x) then k.openLines s.fresh none else k
      | none => k }

/-- Nothing of a caravan is left to run or to copy (R239, R326). -/
def State.caravanDone (s : State) (x : Caravan) : Bool :=
  x.unexpanded == 0 && (s.d.recs.all fun r => r.car != x.id)
  && (List.finRange 320).all fun c =>
    let k := s.core c
    k.car != some x.id
    || (k.q.cp.isEmpty && k.q.sh.isEmpty && k.q.st.isEmpty && k.q.at_.isEmpty && k.run.isNone)

/-- CARAVAN_END (R326, R339): the writes of the caravan are performed; CVAL is written, the interrupt raised, and what it held
freed. -/
def execCaravanEnd (car : Nat) (s : State) : Host.Outcome State Fault Refusal :=
  match s.d.car car with
  | none => notEnabled "CARAVAN_END"
  | some x =>
    if !s.caravanDone x then notEnabled "CARAVAN_END"
    else
      let r := x.rec_.toNat
      orWait "CARAVAN_END" ((s.completeWrite x.queue (field r 576 64) (field r 640 64)).map fun s =>
        let f := s.d.qs[x.queue].fn
        let s := if field r 704 1 = 1 then s.modD fun d => { d with msix := (f, 0) :: d.msix } else s
        (s.endCars fun y => y.id == car).releaseLines)

end Sys2Proof.Machine
end

