-- ==== Sys2Proof/Machine/Select.lean ====
section
/-! DEFINITION. Selection by an idle core, the binding of a core and the start of a run (R329, R332 to R335, R379), the wake and
the escalation of records (R236, R335), and the registers of the dispatcher: queue bindings and status, model slots, share
windows (R317, R318, R336 to R338, R341, R412). -/

namespace Sys2Proof.Machine
open Sys2Proof

/-! ### The start of a run -/

namespace Core

/-- The scratchpad at the binding of a core: lines that the caravan has written through the cluster window stay as they are, any
other is full, and what it holds is open (R246, R248, R329). DESIGN CHOICE: R246 keeps such lines with their bits, and gives its
Reset column at the first binding too (log 99). -/
def bindLines (k : Core) (fresh : Nat) (c : BitVec 12) (car : Nat) : Core :=
  { (if k.lineCar = some car ∧ k.lineCtx = some c then k else k.openLines fresh (some c)) with lineCar := some car }

/-- A core is bound to a caravan (R329, R30, R174, R246). -/
def bind (k : Core) (fresh : Nat) (x : Caravan) (c : Ctx) (svec : BitVec 48) : Core :=
  let r := x.rec_.toNat
  let k := (k.forget fresh c.no).bindLines fresh c.id x.id
  { k with
    w := { k.w with
      det := x.det, sec := c.sec, flags := 0, sfc := 0, mrow := 0
      flo := BitVec.ofNat 19 (r / 2 ^ 448), fhi := BitVec.ofNat 19 (r / 2 ^ 480), ovb := BitVec.ofNat 64 (r / 2 ^ 512)
      htb := BitVec.ofNat 64 (r / 2 ^ 768) &&& 0x0FFFFFFFFFFFFFC1
      uiv := 0, uis := 0, cause := 0, cdata := 0, xpc := 0, xaddr := 0
      ctxid := c.id, ptb := c.ptb, carea := c.carea, svec := svec, dcause := Vector.replicate 16 0 }
    m := { k.m with cwt := x.cwt, cwtP := [] }
    mx := { k.mx with ent := x.ment, mic := x.mmic, sent := x.ment, smic := x.mmic, entP := [], micP := [], sentP := [], smicP := [] }
    ph := Vector.replicate 4 .reset
    rg := .reset
    car := some x.id
    unbind := false }

/-- The run of a record starts (R329): lc and ec are 0 at the first (R129), open at others. The shadow set stays (R137). -/
def startRun (k : Core) (fresh : Nat) (r : CRec) : Core :=
  { k with
    r := { freshRegs fresh r.s with sh := k.r.sh, shp := k.r.shp }
    w := { k.w with
      pl := 0, uih := false, rb := 0, fsp := k.w.fhi, ovp := k.w.ovb
      lc := if r.ran then freshBits fresh 88 else 0, ec := if r.ran then freshBits fresh 89 else 0 }
    f := { k.f with
      peb := 0, hpeb := 0, pc := r.pc, next := none, first := true, wait := 0, extra := 0, fixed := none, leave := none, held := false
      at_ := .start, frozen := false, bankFrozen := false, frz := 0, hcyc := 0, brk := none, kidle := none, knext := none }
    m := { k.m with spill := freeStore fresh 1 Config.spillBytes, spillP := [] }
    run := some r.id
    sup := false
    supSelf := false
    preempt := false
    expired := false }

/-- A core enters the supervisor for a parked record (R379): at SVEC with cause 0, cdata and xpc as they were saved; what another
context left on the core reads as open values (R10), its shadow set stays where it is the context's own (R137). What the engines
still do for the caravan goes on. DESIGN CHOICE: R379 gives the registers no value: s0 to s4 are those of the supervisor at the park, as
R235 saves them, and the others are open (log 68). -/
def enterParked (k : Core) (fresh : Nat) (r : CRec) (area : W64) (y : Ctx) (svec : BitVec 48) (saved : Nat) : Core :=
  let k := k.forget fresh y.no
  let k := if k.lineCtx = some y.id then k
    else
      let k := k.openLines fresh (some y.id)
      { k with m := { k.m with cwt := [], cwtP := [] }
               mx := { k.mx with ent := [], mic := [], sent := [], smic := [], entP := [], micP := [], sentP := [], smicP := [] } }
  let q := { k.q with openBatch := k.freshBatch, hold := none, shold := none, khold := none, earr := k.q.earr ++ k.q.arr, arr := [] }
  let k := k.enterSup (svec.setWidth 64)
  { k with
    r := { freshRegs fresh r.s with sh := k.r.sh, shp := k.r.shp }
    q := q
    w := { k.w with
      ctxid := y.id, ptb := y.ptb, sec := y.sec, carea := area, cause := 0, cdata := BitVec.ofNat 64 saved
      xpc := BitVec.ofNat 48 (saved / 2 ^ 64), svec := svec }
    m := { k.m with spill := freeStore fresh 1 Config.spillBytes, spillP := [] }
    car := some r.car
    run := some r.id
    lineCar := some r.car
    unbind := false }

end Core

/-! ### Selection -/

/-- The cores of a cluster. -/
def coresOf (cl : Fin 32) : List CoreId := (List.range 10).map fun p => coreAt cl.val p

namespace State

/-- A core may run a context (R383), its cluster in service (R413). -/
def mayRunCtx (s : State) (c : CoreId) (x : Ctx) : Bool :=
  let y := s.d.clus[clusOf c]
  y.owner == some x.fn && y.sec == x.sec && !y.retired

/-- The caravan that a core runs records of, and no other (R332): none where SHARE or a park has ended the binding. -/
def boundCar (s : State) (c : CoreId) : Option Nat :=
  if (s.core c).unbind then none
  else ((s.core c).car.bind s.d.car).bind fun x => if field x.rec_.toNat 706 1 = 1 then none else some x.id

/-- A core may be bound to a caravan: no other has live lines in its scratchpad (R248). -/
def linesFree (s : State) (c : CoreId) (car : Nat) : Bool :=
  match (s.core c).lineCar with
  | some y => y == car || (s.d.car y).isNone
  | none => true

/-- A record that a core may run (R333, R341, R369, R379). DESIGN CHOICE: where the AOWN of several cores names the context of a parked
record, any of them may select it (log 111). -/
def mayRun (s : State) (c : CoreId) (r : CRec) : Bool :=
  match s.d.car r.car, s.d.ctx r.ctx with
  | some x, some y =>
    let inSpan := match recSpan x.rec_ with
      | 2 => (clusOf c).val == x.clus
      | 1 => dieOf c == x.die
      | _ => true
    let owners := (List.finRange 320).filter fun e =>
      (s.core e).w.aown.getLsbD 12 && (s.core e).w.aown.setWidth 12 == r.ctx
    r.ready && !y.held && inSpan && s.mayRunCtx c y
    && (match s.boundCar c with | some b => b == r.car | none => s.linesFree c r.car)
    && (!r.pin || c == coreAt x.clus (field x.rec_.toNat 116 4))
    && (!r.isParked || owners.isEmpty || owners.contains c)
  | _, _ => false

/-- Older: made runnable earlier; of one cycle, by caravan and then by expansion order (R335). -/
def older (a b : CRec) : Bool :=
  decide (a.since < b.since) || (a.since == b.since && (decide (a.car < b.car) || (a.car == b.car && decide (a.id < b.id))))

/-- How near a record's hint is to a core (R333). -/
def nearness (c : CoreId) (r : CRec) : Nat :=
  if r.hv && r.hclu == (clusOf c).val && r.hpos == posOf c then 0
  else if r.hclu == (clusOf c).val then 1
  else if dieOfClus r.hclu == dieOf c then 2 else 3

/-- The record an idle core selects, with its cluster's credits after it (R333, R334): a slot is eligible with a record that any
core of the cluster may run. -/
def select (s : State) (c : CoreId) : Option (CRec × Vector Nat 16) :=
  let e := s.d.recs.filter fun r => s.mayRun c r
  let cr := s.d.credC[clusOf c]
  match firstBy older (e.filter fun r => r.st == .escalated) with
  | some r => some (r, cr)
  | none =>
    let p := e.filter fun r => e.all fun q => q.pri ≤ r.pri
    let near := s.d.recs.filter fun r => (coresOf (clusOf c)).any fun e => s.mayRun e r
    let slots := fun (rs : List CRec) => (List.finRange 16).filter fun m => rs.any fun r => r.msl.toFin == m
    (s.d.chooseSlot cr (slots near) (slots p)).bind fun (m, cr) =>
      let rs := p.filter fun r => r.msl.toFin == m
      let before := fun (a b : CRec) =>
        decide (nearness c a < nearness c b)
        || (nearness c a == nearness c b && (decide (b.stage < a.stage) || (a.stage == b.stage && older a b)))
      (firstBy before rs).map fun r => (r, cr)

/-- A record has been runnable for its limit, and is not yet escalated (R335). -/
def recAged (s : State) (r : CRec) : Bool := r.st == .runnable && decide (r.since + Config.ageLimit ≤ s.d.tick)

/-- The core can take another run: it is idle, and for a new binding the engines have nothing of the old one left. -/
def canTake (s : State) (c : CoreId) (r : CRec) : Bool :=
  let k := s.core c
  !k.active && !s.d.inReset && !s.d.recs.any (fun r => s.recAged r && s.mayRun c r)
  && (s.boundCar c == some r.car
      || k.enginesDone)

/-- The record leaves its pool for a core, and what its wake acquired binds the core (R230, R333); a parked one, but for what its own
stopped stream has not performed (R378, R379). -/
def takeRec (s : State) (c : CoreId) (r : CRec) (cr : Vector Nat 16) : State :=
  (s.modD fun d => { (d.modRec r.id fun r => { r with st := .running, pin := false, acq := [], area := none }) with
    credC := d.credC.set (clusOf c) cr }).acquire c (if r.isParked then r.acq.map fun q => { q with skip := some r.id } else r.acq)

end State

/-- RECORD_SELECTION (R329, R332, R333): an idle core takes the record that R333 selects for it, and its run starts. -/
def execRecordSelection (c : CoreId) (s : State) : Host.Outcome State Fault Refusal :=
  match s.select c with
  | none => notEnabled "RECORD_SELECTION"
  | some (r, cr) =>
    match s.d.car r.car, s.d.ctx r.ctx with
    | some x, some y =>
      if r.isParked || !s.canTake c r then notEnabled "RECORD_SELECTION"
      else
        let new := s.boundCar c != some r.car
        let svec := s.d.fns[y.fn].svec
        let s := ((s.settleLines c).takeRec c r cr).modCore c fun k =>
          (if new then k.bind s.fresh x y svec else k).startRun s.fresh r
        .next (s.retrySeif r.ctx).postSeif
    | _, _ => notEnabled "RECORD_SELECTION"

/-- PARKED_RECORD_SELECT (R379). DESIGN CHOICE: cdata and xpc are open where the context may not reach its area, or the area's page is
lost (R386, R409; log 110). -/
def execParkedRecordSelect (c : CoreId) (s : State) : Host.Outcome State Fault Refusal :=
  match s.select c with
  | none => notEnabled "PARKED_RECORD_SELECT"
  | some (r, cr) =>
    match s.d.ctx r.ctx, r.area with
    | some y, some area =>
      if !s.canTake c r then notEnabled "PARKED_RECORD_SELECT"
      else
        let ok := s.d.areaOk y area.toNat Config.areaBytes && !s.d.gone area.toNat 0x24000
        let saved := if ok then natOf (s.d.areaRead y (area.toNat + 8) 16)
          else (freeReg s.fresh 104).toNat + (freeReg s.fresh 105).toNat * 2 ^ 64
        let svec := s.d.fns[y.fn].svec
        let s := ((s.settleLines c).takeRec c r cr).modCore c fun k => k.enterParked s.fresh r area y svec saved
        let s := if ok then s.notePa c (svec.setWidth 64) (area.toNat + 8) 16 else s
        .next (s.retrySeif r.ctx).postSeif
    | _, _ => notEnabled "PARKED_RECORD_SELECT"

/-- RECORD_WAKE (R236, R331): the condition of a waiting record holds; it goes to the back of the pool of its hinted cluster. -/
def execRecordWake (id : Nat) (s : State) : Host.Outcome State Fault Refusal :=
  match s.d.crec id with
  | none => notEnabled "RECORD_WAKE"
  | some r =>
    if r.st = .waiting ∧ s.d.condMet s.lineFull (fun q => s.releaseOpen q.skip q.core q.before) r then .next (s.modD fun d => d.modRec id fun r => r.wakeAt d.tick)
    else notEnabled "RECORD_WAKE"

/-- RECORD_ESCALATION (R335). -/
def execRecordEscalation (id : Nat) (s : State) : Host.Outcome State Fault Refusal :=
  match s.d.crec id with
  | none => notEnabled "RECORD_ESCALATION"
  | some r =>
    if s.recAged r then .next (s.modD fun d => d.modRec id fun r => { r with st := .escalated })
    else notEnabled "RECORD_ESCALATION"

/-! ### The dispatcher's registers -/

/-- A configuration window takes writes: not in ERROR (R396), nor before a function-level reset completes (R433). -/
def State.open (s : State) (f : FnId) : Bool := s.d.fns[f].iface != .error && !s.inFlr f

/-- Every pending record of a queue fails with reason 6, in commit order (R341). -/
def State.failAll (s : State) (q : Fin 64) : List Pending → Option State
  | [] => some s
  | p :: ps => (s.failLaunch q p.rec_ 6).bind fun s => s.failAll q ps

/-- QUEUE_BINDING_WRITE (R317, R341, R394, R395): PRIO, SLOT and ERG are locked items, EN and CTX are not. In its cycle it comes before
every record that reaches the queue. -/
def execQueueBindingWrite (f : FnId) (q : Fin 64) (v : W64) (s : State) : Host.Outcome State Fault Refusal :=
  let x := s.d.qs[q]
  if x.fn ≠ f ∨ !s.open f then .next s
  else inTurn "QUEUE_BINDING_WRITE" q.val 0 s fun s =>
    let y := { x with en := v.getLsbD 0, prio := v.extractLsb' 1 3, slot := v.extractLsb' 4 4, erg := v.getLsbD 11
                      ctx := v.extractLsb' 12 12 }
    let changed := y.prio != x.prio || y.slot != x.slot || y.erg != x.erg
    let clears := x.en && !y.en
    let s := s.modD fun d => { d with qs := d.qs.set q (if clears then { y with recs := [] } else y) }
    let s := if clears then s.failAll q x.recs else some s
    orWait "QUEUE_BINDING_WRITE" (s.map fun s => if changed then s.fall f 1 false else s)

/-- QUEUE_STATUS_WRITE (R318): a 1 clears OVF or ERR. -/
def execQueueStatusWrite (f : FnId) (q : Fin 64) (v : W64) (s : State) : Host.Outcome State Fault Refusal :=
  let x := s.d.qs[q]
  if x.fn ≠ f ∨ s.inFlr f then .next s
  else .next (s.modD fun d => { d with
    qs := d.qs.set q { x with ovf := x.ovf && !v.getLsbD 6, err := x.err && !v.getLsbD 7 } })

namespace Dev

/-- The sum of the minima of the valid slots (R336). -/
def sumMin (d : Dev) : Nat := ((List.finRange 16).map fun m => if d.slots[m].valid then d.slots[m].minbw.toNat else 0).sum

/-- What a stack's controllers owe and what they have, in bursts per window (R412). -/
def stackLoad (d : Dev) (k : Fin 8) : Nat × Nat := (32 * d.sumMin, 960 * (32 - popcount 32 d.hbm[k].rch.toNat))

/-- QOS_DEGRADED goes to every function with a valid slot and a minimum, where a stack owes more than it has (R412). -/
def qosCheck (d : Dev) : Dev :=
  if (List.finRange 8).any fun k => decide ((d.stackLoad k).2 < (d.stackLoad k).1) then
    (List.finRange 8).foldl (fun (d : Dev) f =>
      if (List.finRange 16).any fun m => d.slots[m].valid && d.slots[m].fn == f && d.slots[m].minbw != 0 then d.report f 128
      else d) d
  else d

/-- The minimum of a slot at a controller of a stack (R412). -/
def minimumAt (d : Dev) (k : Fin 8) (m : Fin 16) : Nat :=
  let (owed, left) := d.stackLoad k
  let x := d.slots[m].minbw.toNat
  if left < owed then x * left / owed else x

end Dev

/-- MODEL_SLOT_WRITE (R336, R395, R412): refused where it would break the limits of DW and MINBW. The registers of a slot are
a locked item of the function that owns it. -/
def execModelSlotWrite (m : Fin 16) (v : W64) (s : State) : Host.Outcome State Fault Refusal :=
  let old := s.d.slots[m]
  let x : MSlot := ⟨v.extractLsb' 0 10, v.extractLsb' 10 8, v.extractLsb' 18 8, (v.extractLsb' 26 3).toFin, v.getLsbD 29⟩
  let d := { s.d with slots := s.d.slots.set m x }
  if x.valid && (x.dw == 0 || !Nat.ble d.sumMin 960) then .next s
  else
    inTurn "MODEL_SLOT_WRITE" (64 + old.fn.val) 3 s fun s => inTurn "MODEL_SLOT_WRITE" (64 + x.fn.val) 3 s fun s =>
      .next ((({ s with d := { s.d with slots := s.d.slots.set m x }.qosCheck } : State).fall old.fn 1 false).fall x.fn 1 false)

/-! ### Share windows -/

/-- A share of bursts: floor of the proportion, and one more to each of the first classes while any are left (R337). -/
def surplus (left : Nat) (ws : List (Nat × Nat)) : List (Nat × Nat) :=
  let total := (ws.map Prod.snd).sum
  if total = 0 then ws.map fun w => (w.1, 0)
  else
    let base := ws.map fun w => (w.1, left * w.2 / total)
    let rest := left - (base.map Prod.snd).sum
    base.zipIdx.map fun b => (b.1.1, b.1.2 + (if b.2 < rest then 1 else 0))

/-- The bursts that each class still asks for once some are served. -/
def stillPending (pend served : List (Nat × Nat)) : List (Nat × Nat) :=
  (pend.map fun c => (c.1, c.2 - (tabGet served c.1).getD 0)).filter fun c => c.2 != 0

/-- The bursts left over are divided among the classes that still have requests pending, by weight, or evenly where every such weight
is 0; what a class does not ask for goes round again (R337 item 3). -/
def shareOut (weight : Nat → Nat) : Nat → Nat → List (Nat × Nat) → List (Nat × Nat) → List (Nat × Nat)
  | 0, _, _, served => served
  | fuel + 1, left, pend, served =>
    let open_ := stillPending pend served
    let heavy := open_.filter fun c => weight c.1 != 0
    let ws := if heavy.isEmpty then open_.map fun c => (c.1, 1) else heavy.map fun c => (c.1, weight c.1)
    let got := (surplus left ws).map fun c => (c.1, min c.2 ((tabGet open_ c.1).getD 0))
    let n := (got.map Prod.snd).sum
    if n = 0 then served
    else shareOut weight fuel (left - n) pend (got.foldl (fun m c => tabSet m c.1 ((tabGet m c.1).getD 0 + c.2)) served)

/-- The bursts a window serves of those pending (R337): of no caravan (class 16) up to 64; each class its minimum, or all it asks for;
then the surplus. -/
def allot (share : List (Nat × Nat × Nat)) (pend : List (Nat × Nat)) : List (Nat × Nat) :=
  let other := min ((tabGet pend 16).getD 0) 64
  let mine := pend.filter fun c => c.1 != 16
  let mins := mine.map fun c => (c.1, min c.2 (((tabGet share c.1).map Prod.fst).getD 0))
  let weight := fun (m : Nat) => ((tabGet share m).map Prod.snd).getD 1
  let served := shareOut weight 17 (1024 - other - (mins.map Prod.snd).sum) mine mins
  if other = 0 then served else tabSet served 16 other

/-- The bursts asked of a channel in each class since its window began, with those that window left. -/
def Dev.pendingAt (d : Dev) (ch : Fin 256) : List (Nat × Nat) :=
  let old := ((tabGet d.bw ch.val).map fun b => stillPending b.pend b.served).getD []
  (d.asked.filter fun e => Config.channelOf (e.1 / 32) == ch).foldl (fun m e =>
    tabSet m (e.1 % 32) ((tabGet m (e.1 % 32)).getD 0 + e.2)) old

/-- The first page of a channel at or after a page, in a ring of the device's pages. -/
def nextPage (ch : Fin 256) : Nat → Nat → Nat
  | 0, p => p
  | fuel + 1, p =>
    let p := if Config.devBytes ≤ 65536 * p then 0 else p
    if Config.channelOf p = ch then p else nextPage ch fuel (p + 1)

/-- The unit that patrol reads after one, in address order within a channel: it comes round to every unit of the channel (R408). -/
def nextPatrol (ch : Fin 256) (u : Nat) : Nat :=
  if (u + 1) % 1024 = 0 then 1024 * nextPage ch (Config.devBytes / 65536 + 1) ((u + 1) / 1024) else u + 1

/-- BANDWIDTH_WINDOW (R337, R338, R341, R412): a controller serves a window of the bursts pending for it, with the slot registers as they
now stand: a slot made invalid under running records keeps minimum 0 and weight 1. What it does not serve stays pending. Patrol reads one unit of the channel in it, and clears no poison
(R408). -/
def execBandwidthWindow (ch : Fin 256) (s : State) : Host.Outcome State Fault Refusal :=
  let k : Fin 8 := ⟨ch.val / 32, by omega⟩
  let share := (List.finRange 16).map fun m =>
    let x := s.d.slots[m]
    if x.valid then (m.val, s.d.minimumAt k m, x.weight.toNat) else (m.val, 0, 1)
  let w := tabGet s.d.bw ch.val
  let n := (w.map BwWin.n).getD 0
  let old := s.d.pendingAt ch
  let pend := tabSet old 16 ((tabGet old 16).getD 0 + 1)
  let unit := w.elim (1024 * nextPage ch (Config.devBytes / 65536 + 1) 0) fun w => nextPatrol ch w.patrol
  .next (s.modD fun d => { d with
    bw := tabSet d.bw ch.val ⟨n + 1, share, pend, allot share pend, unit⟩
    asked := d.asked.filter fun e => Config.channelOf (e.1 / 32) != ch })

end Sys2Proof.Machine
end

