-- ==== Sys2Proof/Machine/Commands.lean ====
section
/-! DEFINITION. The commands of the mailbox (R389, R417, R418, R429) and the key messages they take. -/

namespace Sys2Proof.Machine
open Sys2Proof

/-! ### The mailbox -/

/-- A command leaves STATUS 0x01, and vector 2 is raised (R389, R430). -/
def Dev.endCommand (d : Dev) (f : FnId) (status : Nat) : Dev :=
  { d.modFn f fun x => { x with status := BitVec.ofNat 64 status } with msix := (f, 2) :: d.msix }

/-- The work of a command on its function, whose operands are those that its write read: the state after it, or the reason of its
refusal. -/
abbrev CmdBody := Fn → State → Except Nat State

/-- CMD takes the value written (R389). -/
def State.withCmd (s : State) (f : FnId) (v : W64) : State := s.modD fun d => d.modFn f fun x => { x with cmd := v }

/-- A command is performed with the operands that its write read (R389): it ends with its result, or goes on after it starts, and STATUS
reads 0x01. An unlisted value is refused at once with reason 0. -/
def State.doCommand (s : State) (f : FnId) (c : Option (Bool × CmdBody)) (opa opb : W64) : State :=
  match c with
  | none => s.modD fun d => d.modFn f fun x => { x with status := 0x80 }
  | some (long, body) =>
    match body { s.d.fns[f] with opa := opa, opb := opb } s with
    | .ok t => t.modD fun d => if long then d.modFn f fun x => { x with status := 1 } else d.endCommand f 0
    | .error r => s.modD fun d => d.endCommand f (0x80 + r)

/-- A write of CMD (R389): discarded in ERROR (R396). Commands of one function are performed one at a time, in order: behind one that
runs, a write waits with its operands. DEDUCED: an unlisted value waits too (log 115). -/
def command (v : W64) (f : FnId) (c : Option (Bool × CmdBody)) (s : State) : Host.Outcome State Fault Refusal :=
  if !s.open f then .next s
  else
    let x := s.d.fns[f]
    if x.status = 1 then .next ((s.withCmd f v).modD fun d => d.modFn f fun x => { x with cmds := x.cmds ++ [(v, x.opa, x.opb)] })
    else .next ((s.withCmd f v).doCommand f c x.opa x.opb)

/-- Refuses with the reason of the first condition that holds. -/
def refuse : List (Bool × Nat) → Except Nat Unit
  | [] => .ok ()
  | (b, r) :: cs => if b then .error r else refuse cs

/-! ### Contexts -/

/-- A context ends (R389, R264): its records, launches, caravans and conversions go, with no completion write. -/
def State.endCtx (s : State) (id : BitVec 12) : State :=
  let s := s.endCars fun x => x.ctx == id
  let s := s.modD fun d =>
    let d := d.dropLaunches fun q => q.ctx == id && d.ctxIs id q.fn false
    let d := ((d.ctx id).map Ctx.no).elim d d.closeAreas
    { d with
      recs := d.recs.filter fun r => r.ctx != id
      ctxs := d.ctxs.filter fun c => c.id != id
      seif := d.seif.map fun vs => vs.filter fun v => v.ctx != id }
  s.releaseLines.pruneSusp.postSeif

/-- The context of a command's operand, where it is a live context of the function. -/
def State.ctxOfFn (s : State) (f : FnId) (id : BitVec 12) : Option Ctx := (s.d.ctx id).filter fun c => c.fn == f

/-- Changes a context's descriptor. -/
def Dev.modCtx (d : Dev) (id : BitVec 12) (g : Ctx → Ctx) : Dev :=
  { d with ctxs := d.ctxs.map fun c => if c.id = id then g c else c }

/-- CTX_CREATE (R387, R389). -/
def ctxCreateBody (f : FnId) (x : Fn) (s : State) : Except Nat State := do
  let id := x.opa.extractLsb' 0 12
  let sec := x.opa.getLsbD 12
  let tkey := x.opa.extractLsb' 13 12
  let keyBad := match s.d.keySlot tkey with
    | some k => k.fn != some f || k.sec != sec || s.d.ctxs.any fun c => c.tkey == tkey
    | none => true
  refuse [((s.d.ctx id).isSome, 1), (keyBad, 2),
    (x.opb.toNat % 4096 != 0 || !s.d.inGranules f (some sec) x.opb.toNat 4096, 3), (sec && x.iface != .run, 4)]
  pure (s.modD fun d => { d with ctxs := d.ctxs ++ [⟨id, f, sec, false, tkey, x.opb, 0, d.nctx⟩], nctx := d.nctx + 1 })

/-- CTX_CREATE. -/
def execCtxCreate (f : FnId) (s : State) : Host.Outcome State Fault Refusal := command 0x01 f (some (false, ctxCreateBody f)) s

/-- CTX_DESTROY (R389). -/
def ctxDestroyBody (f : FnId) (x : Fn) (s : State) : Except Nat State := do
  let id := x.opa.extractLsb' 0 12
  refuse [((s.ctxOfFn f id).isNone, 1), (s.d.recs.any fun r => r.ctx == id && r.st == .running, 5)]
  pure (s.endCtx id)

/-- CTX_DESTROY. -/
def execCtxDestroy (f : FnId) (s : State) : Host.Outcome State Fault Refusal := command 0x02 f (some (false, ctxDestroyBody f)) s

/-- CTX_AREA (R389). -/
def ctxAreaBody (f : FnId) (x : Fn) (s : State) : Except Nat State := do
  let id := x.opa.extractLsb' 0 12
  let a := x.opb.toNat
  let sec := ((s.ctxOfFn f id).map Ctx.sec).getD false
  refuse [((s.ctxOfFn f id).isNone, 1), (a % 4096 != 0 || !s.d.inGranules f (some sec) a Config.areaBytes, 3)]
  pure (s.modD fun d => d.modCtx id fun c => { c with carea := x.opb })

/-- CTX_AREA. -/
def execCtxArea (f : FnId) (s : State) : Host.Outcome State Fault Refusal := command 0x0B f (some (false, ctxAreaBody f)) s

/-- HOLD (R369, R389): the context's records are not selected, and the cores that run one stop at their next boundary. -/
def holdBody (f : FnId) (x : Fn) (s : State) : Except Nat State := do
  let id := x.opa.extractLsb' 0 12
  refuse [((s.ctxOfFn f id).isNone, 1)]
  let s := s.modD fun d => d.modCtx id fun c => { c with held := true }
  pure { s with cores := s.cores.map fun k =>
    if k.run.isSome && k.w.pl == 0 && k.w.ctxid == id then { k with preempt := true } else k }

/-- HOLD. -/
def execHold (f : FnId) (s : State) : Host.Outcome State Fault Refusal := command 0x06 f (some (false, holdBody f)) s

/-- RELEASE (R389). -/
def releaseBody (f : FnId) (x : Fn) (s : State) : Except Nat State := do
  let id := x.opa.extractLsb' 0 12
  refuse [((s.ctxOfFn f id).isNone, 1)]
  pure (s.modD fun d => d.modCtx id fun c => { c with held := false })

/-- RELEASE. -/
def execRelease (f : FnId) (s : State) : Host.Outcome State Fault Refusal := command 0x07 f (some (false, releaseBody f)) s

/-! ### Keys -/

/-- A slot is the text key of a live context, or the supervisor text key of its function (R348, R389). -/
def State.textKey (s : State) (f : FnId) (k : BitVec 12) : Bool :=
  (s.d.ctxs.any fun c => c.tkey == k) || (s.d.fns[f].stkey == k && k != 0)

/-- The refusals of KEY_GEN and KEY_SET (R389). -/
def keyRefusals (s : State) (f : FnId) (k : BitVec 12) (sec : Bool) : List (Bool × Nat) :=
  let other := match s.d.keySlot k with
    | some x => x.fn != some f
    | none => false
  [(k == 0 || other, 2), (s.textKey f k, 6), (sec && s.d.fns[f].iface != .run, 4)]

/-- KEY_GEN (R389, R390): the slot holds a new key of the random source. -/
def keyGenBody (f : FnId) (x : Fn) (s : State) : Except Nat State := do
  let k := x.opa.extractLsb' 0 12
  let sec := x.opa.getLsbD 12
  refuse (keyRefusals s f k sec)
  pure (s.modD fun d => { d.modFn f fun x => { x with nrand := x.nrand + 1 } with
    keys := tabSet d.keys k.toNat ⟨some f, sec, .random (8 * x.nrand + f.val)⟩ })

/-- KEY_GEN. -/
def execKeyGen (f : FnId) (s : State) : Host.Outcome State Fault Refusal := command 0x03 f (some (false, keyGenBody f)) s

/-- The message of a session, and the sessions without it. -/
def takeMessage (id : W64) : List (W64 × BitVec 512) → Option (BitVec 512 × List (W64 × BitVec 512))
  | [] => none
  | (i, m) :: r => if i = id then some (m, r) else (takeMessage id r).map fun x => (x.1, (i, m) :: x.2)

/-- KEY_SET (R389, R390): the slot, a secure one, holds the key material of the session's message. -/
def keySetBody (f : FnId) (x : Fn) (s : State) : Except Nat State := do
  let k := x.opa.extractLsb' 0 12
  refuse (keyRefusals s f k true)
  match takeMessage x.opb x.spdm with
  | none => .error 7
  | some (m, rest) =>
    refuse [(m.extractLsb' 0 256 == m.extractLsb' 256 256, 8)]
    pure (s.modD fun d => { d.modFn f fun x => { x with spdm := rest } with
      keys := tabSet d.keys k.toNat ⟨some f, true, .given m⟩ })

/-- KEY_SET. -/
def execKeySet (f : FnId) (s : State) : Host.Outcome State Fault Refusal := command 0x04 f (some (false, keySetBody f)) s

/-- KEY_ERASE (R389, R428): the slot is invalid, and HKEY closes where it names it. -/
def keyEraseBody (f : FnId) (x : Fn) (s : State) : Except Nat State := do
  let k := x.opa.extractLsb' 0 12
  refuse [((s.d.keySlot k).all fun y => y.fn != some f, 2), (s.textKey f k, 6)]
  pure (s.modD fun d => { d.modFn f fun x =>
      { x with hkey := if x.hkey.setWidth 12 = k then x.hkey &&& 0xFFF else x.hkey } with
    keys := tabDel d.keys k.toNat })

/-- KEY_ERASE. -/
def execKeyErase (f : FnId) (s : State) : Host.Outcome State Fault Refusal := command 0x05 f (some (false, keyEraseBody f)) s

/-- SPDM_KEY_MESSAGE (R389): the latest key message of a session. -/
def execSpdmKeyMessage (f : FnId) (session : W64) (material : BitVec 512) (s : State) : Host.Outcome State Fault Refusal :=
  .next (if s.inFlr f then s else s.modD fun d => d.modFn f fun x =>
    { x with spdm := (x.spdm.filter fun m => m.1 != session) ++ [(session, material)] })

/-! ### The supervisor image -/

/-- SUP_LOAD (R348, R429): SVEC, STKEY, STLEN and the supervisor control word table. -/
def supLoadBody (f : FnId) (x : Fn) (s : State) : Except Nat State := do
  let a := (x.opa &&& 0x000FFFFFFFFFFFC0).toNat
  let h := wordsOf 64 8 8 (s.d.fnRead f a 64)
  let w := fun (i : Nat) => (h.getD i 0).toNat
  let n := field (w 0) 48 7
  let svec := field (w 0) 6 42 * 64
  let stkey := BitVec.ofNat 12 (w 1)
  let stlen := field (w 1) 32 32
  let keyBad := match s.d.keySlot stkey with
    | some k => k.fn != some f || k.sec || stkey == 0
    | none => true
  let bad := field (w 0) 0 6 != 0 || field (w 0) 55 9 != 0 || decide (64 < n) || field (w 1) 12 20 != 0
    || stlen % 64 != 0 || decide (stlen < 128) || (List.range 6).any (fun i => w (i + 2) != 0) || keyBad
    || !s.d.inGranules f none svec stlen
  refuse [(!s.d.inGranules f none a 64 || !s.d.inGranules f none a (64 + 32 * min n 64), 3), (x.iface != .unlocked, 4),
    (s.d.ctxs.any fun c => c.fn == f, 5), (bad, 10)]
  let cw := wordsOf 256 32 n (s.d.fnRead f (a + 64) (32 * n))
  pure (s.modD fun d => ((d.settlePages a (64 + 32 * n)).ask 16 a (64 + 32 * n)).modFn f fun x => { x with
    svec := BitVec.ofNat 48 svec, stkey := stkey, stlen := BitVec.ofNat 32 stlen, scwt := Sparse.write [] 0 cw
    scwtP := [] })

/-- SUP_LOAD. -/
def execSupLoad (f : FnId) (s : State) : Host.Outcome State Fault Refusal := command 0x0A f (some (false, supLoadBody f)) s

/-! ### Checkpoint and restore -/

/-- The signatures of a statement whose digest is given, by the identity keys of the device (R8, R432). PRESUMED: a P-384 signature has 96
bytes (two numbers of 48) and an LMS signature 1,772 (RFC 8554 with the parameters of R431), lengths that the spec does not give (log
72). -/
def Dev.sign (d : Dev) (fresh : Nat) (digest : BitVec 384) : Signed :=
  let fw := (d.boot.image.map Image.digest).getD 0
  ⟨(List.range 96).map (Config.p384Sign (Config.p384Identity d.boot.secret fw) digest fresh),
    (List.range 1772).map (Config.lmsSign (Config.lmsIdentity d.boot.secret fw) digest fresh)⟩

/-- The extents of a descriptor, up to one of length 0; none where one lies outside the function's granules (R417). -/
def Dev.extents (d : Dev) (f : FnId) : Nat → Nat → Option (List Extent)
  | 0, _ => some []
  | fuel + 1, a =>
    if !d.inGranules f none a 32 then none
    else
      match wordsOf 64 8 4 (d.fnRead f a 32) with
      | [w0, addr, len, _] =>
        if len = 0 then some []
        else (d.extents f fuel (a + 32)).map fun es =>
          ⟨w0.getLsbD 0, w0.extractLsb' 1 5, w0.extractLsb' 6 12, addr, len⟩ :: es
      | _ => some []

/-- The granules of a function, in increasing order, with their worlds. -/
def Dev.granulesOf (d : Dev) (f : FnId) : List (Nat × Bool) :=
  (List.finRange 477).filterMap fun g => if d.grans[g].owner = some f then some (g.val, d.grans[g].sec) else none

/-- The units of a granule: the first, and how many lie in device memory (R382). -/
def granUnits (g : Nat) : Nat × Nat := (g * 2 ^ 24, (min ((g + 1) * 2 ^ 30) Config.devBytes - g * 2 ^ 30) / 64)

/-- Why a checkpoint or a restore is refused (R417); else its stream. -/
def State.openStream (s : State) (f : FnId) (out quiet : Bool) (x : Fn) : Except Nat Stream := do
  let ext := s.d.extents f 1048576 (x.opa &&& 0x000FFFFFFFFFFFC0).toNat
  refuse [(ext.isNone, 3),
    (quiet && ((s.d.ctxs.any fun c => c.fn == f && !c.held)
      || s.d.recs.any fun r => r.st == .running && s.d.ctxIs r.ctx f false), 9)]
  let gs := s.d.granulesOf f
  pure ⟨out, quiet, f, ext.getD [], ⟨ext.getD [], gs, [], [], [], [], ⟨[], []⟩⟩, if out then gs.map fun g => granUnits g.1 else []⟩

/-- A stream begins; its descriptor has been read (R338, R415). -/
def Dev.addStream (d : Dev) (x : Fn) (t : Stream) : Dev :=
  let a := (x.opa &&& 0x000FFFFFFFFFFFC0).toNat
  let n := 32 * (t.ext.length + 1)
  { (d.settlePages a n).ask 16 a n with streams := d.streams ++ [t] }

/-- CHECKPOINT (R417): the stream begins. -/
def checkpointBody (f : FnId) (x : Fn) (s : State) : Except Nat State := do
  let t ← s.openStream f true (x.opb.getLsbD 0) x
  pure (s.modD fun d => d.addStream x t)

/-- CHECKPOINT. -/
def execCheckpoint (f : FnId) (s : State) : Host.Outcome State Fault Refusal := command 0x08 f (some (true, checkpointBody f)) s

/-- RESTORE (R417). -/
def restoreBody (f : FnId) (x : Fn) (s : State) : Except Nat State := do
  let t ← s.openStream f false true x
  pure (s.modD fun d => d.addStream x t)

/-- RESTORE. -/
def execRestore (f : FnId) (s : State) : Host.Outcome State Fault Refusal := command 0x09 f (some (true, restoreBody f)) s

/-- The entries of a table of units in some granules, put in place of those that stand there; the numbers rise. -/
def putGranules {α : Type} (gs : List (Nat × Bool)) (w : Nat) (old new : List (Nat × α)) : List (Nat × α) :=
  gs.foldl (fun m g =>
    let a := g.1 * 2 ^ 30
    let b := min ((g.1 + 1) * 2 ^ 30) Config.devBytes
    m.filter (fun e => decide (e.1 * w < a)) ++ new.filter (fun e => decide (a ≤ e.1 * w) && decide (e.1 * w < b))
    ++ m.filter (fun e => decide (b ≤ e.1 * w))) old

/-- The granules of a stream wait on nothing: no page of theirs is locked (R418, R422). -/
def Dev.streamFree (d : Dev) (gs : List (Nat × Bool)) : Bool := gs.all fun g => d.moving.all fun p => p * 65536 / 2 ^ 30 != g.1

/-- The function's conversions have settled (R265, R418). -/
def Dev.settledFor (d : Dev) (f : FnId) : Bool := d.seif.toList.all fun vs => vs.all fun v => v.fn != f

/-- Units are read into a stream, a page pending scrub once it is scrubbed (R415, R418). -/
def Dev.readUnits (d : Dev) (c : Ckpt) (r : Nat × Nat) : Dev × Ckpt :=
  let d := (d.settlePages (64 * r.1) (64 * r.2)).ask 16 (64 * r.1) (64 * r.2)
  let inside := fun (w a : Nat) => decide (r.1 ≤ a * w / 64) && decide (a * w / 64 < r.1 + r.2)
  (d, { c with
    mem := c.mem ++ d.mem.filter fun e => inside 1 e.1
    tags := c.tags ++ d.tags.filter fun e => inside 64 e.1
    memP := c.memP ++ d.memP.filter fun u => inside 64 u })

/-- A checkpoint stream goes on: with QUIESCE all of it at one point, once the function's conversions have settled; else some units of
its next granule, how many being open (R418). A page that a move has locked makes it wait. -/
def Stream.read (t : Stream) (d : Dev) (fresh : Nat) : Dev × Stream :=
  match t.left with
  | [] => (d, t)
  | (u, n) :: more =>
    let take := if t.quiet then t.left else [(u, 1 + (Config.freeWord fresh 2).toNat % n)]
    if (t.quiet && !d.settledFor t.fn) || take.any fun r => d.locked (64 * r.1) (64 * r.2) then (d, t)
    else
      let (d, c) := take.foldl (fun (x : Dev × Ckpt) r => x.1.readUnits x.2 r) (d, t.got)
      let k := ((take.head?).map Prod.snd).getD 0
      (d, { t with got := c, left := if t.quiet then [] else if k < n then (u + k, n - k) :: more else more })

/-- The streams under way go on with a cycle of the device. -/
def Dev.readStreams (d : Dev) (fresh : Nat) : Dev :=
  (List.range d.streams.length).foldl (fun (d : Dev) i => match d.streams[i]? with
    | some t =>
      let (d', t') := t.read d (fresh + i)
      { d' with streams := d'.streams.set i t' }
    | none => d) d

/-- The bytes of a stream up to its digest (R417): each granule with a header of its number and SEC and its bytes as they lie in
memory, ciphertext; then the lists of the trailer. DESIGN CHOICE: the places in header and trailer are not in the spec (log 23). -/
def Ckpt.body (c : Ckpt) (d : Dev) : List Byte :=
  let d := { d with mem := c.mem, tags := c.tags, scrubG := [] }
  (c.grans.flatMap fun g =>
    bytesOf 64 (g.1 + 2 ^ 16 * bit g.2)
    ++ (upFrom (granUnits g.1).1 (granUnits g.1).2).flatMap fun u => xts false (d.tag u).key.material u (d.unitBytes u))
  ++ bytesOf 8 c.retired.length ++ (c.retired.flatMap fun p => bytesOf 8 (p * 65536))
  ++ bytesOf 8 c.memP.length ++ (c.memP.flatMap fun u => bytesOf 8 (u * 64))

/-- The bytes of a stream, with its SHA-384 digest and the two signatures (R8, R417). -/
def Ckpt.bytes (c : Ckpt) (d : Dev) : List Byte :=
  let b := c.body d
  b ++ bytesOf 48 (sha384 b).toNat ++ c.proof.p384 ++ c.proof.lms

/-- Physical address of a byte of host memory, by its bus address (R423). -/
def hostPa (bus : Nat) : Nat := Config.devBytes + bus

/-- The parts of a stream that fall to extents of host memory, with their places there. -/
def hostParts : List Extent → List Byte → List (Nat × List Byte)
  | [], _ => []
  | e :: es, bs =>
    let rest := hostParts es (bs.drop e.len.toNat)
    if e.peer then rest else (hostPa e.addr.toNat, bs.take e.len.toNat) :: rest

/-- Bytes put into host memory; the host answers reads of units wholly written with good data (R424). -/
def Dev.toHost (d : Dev) (p : Nat × List Byte) : Dev :=
  { d with mem := d.mem.write p.1 p.2, hostP := uncovered 8 p.1 p.2.length d.hostP }

/-- A stream byte as it stands at the extents: in host memory what stands there, elsewhere open. -/
def Dev.extentAt (d : Dev) (fresh : Nat) : List Extent → Nat → Byte
  | [], i => Config.freeByte fresh (2 ^ 82 + i)
  | e :: es, i =>
    if e.len.toNat ≤ i then d.extentAt fresh es (i - e.len.toNat)
    else if e.peer then Config.freeByte fresh (2 ^ 82 + e.addr.toNat + i)
    else d.mem.get (hostPa e.addr.toNat + i)

/-- Memory with a function's granules written from the ciphertext of a stream. What ciphertext stands for, read under any key, is held as
what it deciphers to under slot 0. -/
def granuleBytes (at_ : Nat → Byte) : Nat → List (Nat × Bool) → Memory → Memory
  | _, [], m => m
  | base, g :: gs, m =>
    let (u0, n) := granUnits g.1
    granuleBytes at_ (base + 64 + 64 * n) gs (m.write (64 * u0) ((upFrom u0 n).flatMap fun u =>
      xts true KeyId.slot0.material u ((upFrom (base + 64 + 64 * (u - u0)) 64).map at_)))

/-- The listed commands (R389). -/
def cmdOf (f : FnId) (v : W64) : Option (Bool × CmdBody) :=
  match v.toNat with
  | 0x01 => some (false, ctxCreateBody f)
  | 0x02 => some (false, ctxDestroyBody f)
  | 0x03 => some (false, keyGenBody f)
  | 0x04 => some (false, keySetBody f)
  | 0x05 => some (false, keyEraseBody f)
  | 0x06 => some (false, holdBody f)
  | 0x07 => some (false, releaseBody f)
  | 0x08 => some (true, checkpointBody f)
  | 0x09 => some (true, restoreBody f)
  | 0x0A => some (false, supLoadBody f)
  | 0x0B => some (false, ctxAreaBody f)
  | _ => none

/-- The commands that wait behind one that has ended are performed in order, up to one that goes on; in ERROR they are discarded (R389,
R396). -/
def State.nextCommands (f : FnId) : Nat → State → State
  | 0, s => s
  | n + 1, s =>
    match s.d.fns[f].cmds with
    | [] => s
    | (v, a, b) :: cs =>
      if s.d.fns[f].status = 1 then s
      else
        let t := s.modD fun d => d.modFn f fun x => { x with cmds := cs }
        State.nextCommands f n (if t.open f then t.doCommand f (cmdOf f v) a b else t)

/-- A command that went on has ended well, and those that wait behind it follow. -/
def State.commandOver (s : State) (f : FnId) : State :=
  State.nextCommands f s.d.fns[f].cmds.length (s.modD fun d => d.endCommand f 0)

/-- CHECKPOINT_COMPLETE (R417, R418): the stream and its trailer are at their extents, or a restored stream is back in its
granules, under the keys it was written with; STATUS reads 0x00. A stream that no checkpoint put at those extents, or that has been
changed there since, is read from the bytes that stand there (log 23). -/
def execCheckpointComplete (f : FnId) (s : State) : Host.Outcome State Fault Refusal :=
  match s.d.streams.find? fun t => t.fn == f with
  | none => notEnabled "CHECKPOINT_COMPLETE"
  | some t =>
    let gs := t.got.grans
    let done := fun (d : Dev) => (({ s with d := { d with streams := d.streams.filter fun t => t.fn != f } } : State)).commandOver f
    if t.out then
      if !t.left.isEmpty then notEnabled "CHECKPOINT_COMPLETE"
      else
        let c := { t.got with
          retired := s.d.lost.filter fun p => gs.any fun g => g.1 == p * 65536 / 2 ^ 30 }
        let c := { c with proof := s.d.sign s.fresh (sha384 (c.body s.d)) }
        .next (done ((hostParts c.ext (c.bytes s.d)).foldl Dev.toHost { s.d with ckpts := c :: s.d.ckpts }))
    else if !s.d.streamFree gs || !s.d.settledFor f then notEnabled "CHECKPOINT_COMPLETE"
    else
      let d := gs.foldl (fun (d : Dev) g => d.settlePages (g.1 * 2 ^ 30) (64 * (granUnits g.1).2)) s.d
      let d := gs.foldl (fun (d : Dev) g => d.ask 16 (g.1 * 2 ^ 30) (64 * (granUnits g.1).2)) d
      let c := (d.ckpts.find? fun c => c.ext == t.ext).filter fun c =>
        c.grans.map Prod.fst == gs.map Prod.fst
        && (hostParts c.ext (c.bytes d)).all fun p => (upFrom p.1 p.2.length).map d.mem.get == p.2
      let (mem, tags, memP) := match c with
        | some c => (putGranules gs 1 d.mem c.mem, c.tags, c.memP)
        | none => (granuleBytes (d.extentAt s.fresh t.ext) 0 gs d.mem, [], [])
      .next (done { d with
        mem := mem
        tags := putGranules gs 64 d.tags tags
        memP := (putGranules gs 64 (d.memP.map fun u => (u, ())) (memP.map fun u => (u, ()))).map Prod.fst })

/-- UNKNOWN_COMMAND (R389): a write of CMD with a value that is not listed. -/
def execUnknownCommand (f : FnId) (v : W64) (s : State) : Host.Outcome State Fault Refusal :=
  if 1 ≤ v.toNat ∧ v.toNat ≤ 0x0B then notEnabled "UNKNOWN_COMMAND" else command v f none s

end Sys2Proof.Machine
end

