-- ==== Sys2Proof/Machine/Interface.lean ====
section
/-! DEFINITION. The interface of a function and its configuration point (R382, R393 to R402): TDISP requests, the interface
report, configuration-space writes, assignments, error reporting, debug gating, per-function reset, receipts and
attestation. -/

namespace Sys2Proof.Machine
open Sys2Proof

/-- A response is sent. -/
def State.respond (s : State) (r : Resp) : State := s.modD fun d => { d with resps := r :: d.resps }

/-- The TDISP error response: nothing changes (R393). -/
def tdispError (f : FnId) (s : State) : Host.Outcome State Fault Refusal := .next (s.respond (.tdisp f 1 []))

/-- An arrival at a function's configuration point: of one cycle a function-level reset (rank 0) is applied first, then configuration-space
writes (1), TDISP requests (2) and machine-level changes (3) (R393, R433). -/
def atPoint (n : String) (f : FnId) (rank : Nat) (s : State) (k : State → Host.Outcome State Fault Refusal) :
    Host.Outcome State Fault Refusal := inTurn n (64 + f.val) rank s k

/-- A TDISP request at a function's configuration point; before a function-level reset completes it receives the error response (R393,
R433). -/
def tdispRequest (n : String) (f : FnId) (s : State) (k : State → Host.Outcome State Fault Refusal) :
    Host.Outcome State Fault Refusal :=
  atPoint n f 2 s fun s => if s.inFlr f then tdispError f s else k s

/-- A machine-level change at the configuration points of the functions it touches. -/
def atPoints (n : String) (s : State) (k : State → Host.Outcome State Fault Refusal) : List FnId → Host.Outcome State Fault Refusal
  | [] => k s
  | f :: fs => atPoint n f 3 s fun s => atPoints n s k fs

/-- A set of numbers below w as a word. -/
def maskOf (w : Nat) (p : Nat → Bool) : BitVec w := BitVec.ofNat w (((List.range w).map fun i => if p i then 2 ^ i else 0).sum)

/-- The locked items of a function, as they stand (R394, R398). -/
def Dev.freeze (d : Dev) (f : FnId) : Frozen where
  bar0 := d.fns[f].bar0
  bar2 := d.fns[f].bar2
  bar4 := d.fns[f].bar4
  mask := d.fns[f].mask
  clus := maskOf 32 fun c => d.clus[Fin.ofNat 32 c].owner == some f
  csec := maskOf 32 fun c => d.clus[Fin.ofNat 32 c].owner == some f && d.clus[Fin.ofNat 32 c].sec
  queues := maskOf 64 fun q => d.qs[Fin.ofNat 64 q].fn == f
  slots := maskOf 16 fun m => d.slots[Fin.ofNat 16 m].fn == f
  grans := d.granulesOf f

/-- What a lock needs (R394): memory space enabled, every BAR programmed, the IDE stream secure, a cluster and a granule. DESIGN
CHOICE: a base address register is programmed where its base is not 0, on which R394 is silent (log 112). -/
def Dev.lockable (d : Dev) (f : FnId) : Bool :=
  let x := d.fns[f]
  x.command.getLsbD 1 && x.bar0 != 0 && x.bar2 != 0 && x.bar4 != 0 && x.ide
  && (d.clus.toList.any fun c => c.owner == some f) && d.grans.toList.any fun g => g.owner == some f

/-- LOCK_INTERFACE_REQUEST (R393, R394). -/
def execLockInterfaceRequest (f : FnId) (s : State) : Host.Outcome State Fault Refusal :=
  tdispRequest "LOCK_INTERFACE_REQUEST" f s fun s =>
  if s.d.fns[f].iface = .unlocked ∧ s.d.lockable f then
    .next ((s.modD fun d => d.modFn f fun x => { x with iface := .locked, frozen := some (d.freeze f) }).respond (.tdisp f 0 []))
  else tdispError f s

/-- START_INTERFACE_REQUEST (R393). -/
def execStartInterfaceRequest (f : FnId) (s : State) : Host.Outcome State Fault Refusal :=
  tdispRequest "START_INTERFACE_REQUEST" f s fun s =>
  if s.d.fns[f].iface = .locked then
    .next ((s.modD fun d => d.modFn f fun x => { x with iface := .run }).respond (.tdisp f 0 []))
  else tdispError f s

/-- A tenant scrub of granules starts: every page is pending (R414). -/
def Dev.startScrub (d : Dev) (gs : List Nat) : Dev :=
  { d with
    scrubG := gs.foldl setAdd d.scrubG
    scrubbed := d.scrubbed.filter fun p => !gs.contains (p * 65536 / 2 ^ 30)
    scrubFn := gs.foldl (fun m g => match (d.gran (g * 2 ^ 30)).bind Gran.owner with
      | some f => tabSet m g f.val
      | none => tabDel m g) d.scrubFn
    notes := d.notes.filter fun n => !gs.contains (n.1 / 2 ^ 30) }

/-- The steps of R397: contexts end, secure keys go, secure granules are scrubbed in the background, the interface unlocks. -/
def State.unlock (s : State) (f : FnId) : State :=
  let s := ((s.d.ctxs.filter fun c => c.fn == f).map Ctx.id).foldl State.endCtx s
  s.modD fun d =>
    let d := { d with keys := d.keys.filter fun k => !(k.2.sec && k.2.fn == some f) }
    let d := d.startScrub ((d.granulesOf f).filterMap fun g => if g.2 then some g.1 else none)
    d.modFn f fun x => { x with iface := .unlocked, frozen := none }

/-- STOP_INTERFACE_REQUEST (R393, R397). -/
def execStopInterfaceRequest (f : FnId) (s : State) : Host.Outcome State Fault Refusal :=
  tdispRequest "STOP_INTERFACE_REQUEST" f s fun s =>
  if s.d.fns[f].iface = .unlocked then tdispError f s else .next ((s.unlock f).respond (.tdisp f 0 []))

/-! ### The report -/

/-- Runs of consecutive granules of one world: first, count, world (R398). -/
def runsOf : List (Nat × Bool) → List (Nat × Nat × Bool)
  | [] => []
  | (g, b) :: r =>
    match runsOf r with
    | (h, n, c) :: t => if h = g + 1 ∧ b = c then (g, n + 1, b) :: t else (g, 1, b) :: (h, n, c) :: t
    | [] => [(g, 1, b)]

/-- A BAR of the report: index, flags, base, size (R398). -/
def barBytes (index flags : Nat) (base : W64) (size : Nat) : List Byte :=
  bytesOf 8 (index + 256 * flags) ++ bytesOf 8 base.toNat ++ bytesOf 8 size

/-- The digest of the firmware in force (R431, R432). -/
def Boot.digestBytes (b : Boot) : List Byte := bytesOf 48 ((b.image.map Image.digest).getD 0).toNat

/-- The device-specific area of the interface report (R398). -/
def Frozen.report (z : Frozen) (f : FnId) (state : Nat) (firmware : List Byte) : List Byte :=
  let runs := runsOf z.grans
  bytesOf 2 0x0001 ++ bytesOf 1 f.val ++ bytesOf 1 state ++ bytesOf 2 0x0100 ++ bytesOf 2 z.mask.toNat
  ++ bytesOf 4 z.clus.toNat ++ bytesOf 4 z.csec.toNat ++ bytesOf 8 z.queues.toNat ++ bytesOf 2 z.slots.toNat
  ++ bytesOf 1 3 ++ bytesOf 1 runs.length ++ bytesOf 4 0 ++ firmware
  ++ barBytes 0 1 z.bar0 (2 ^ 20) ++ barBytes 2 1 z.bar2 (2 ^ 14) ++ barBytes 4 3 z.bar4 (2 ^ 39)
  ++ runs.flatMap fun r => bytesOf 8 (r.1 + r.2.1 * 2 ^ 16 + bit r.2.2 * 2 ^ 32)

/-- Code of an interface state. -/
def Iface.code : Iface → Nat
  | .unlocked => 0 | .locked => 1 | .run => 2 | .error => 3

/-- GET_DEVICE_INTERFACE_REPORT (R398): answered in CONFIG_LOCKED and RUN. -/
def execGetDeviceInterfaceReport (f : FnId) (s : State) : Host.Outcome State Fault Refusal :=
  tdispRequest "GET_DEVICE_INTERFACE_REPORT" f s fun s =>
  let x := s.d.fns[f]
  match (if x.iface = .locked ∨ x.iface = .run then x.frozen else none) with
  | some z => .next (s.respond (.tdisp f 0 (z.report f x.iface.code s.d.boot.digestBytes)))
  | none => tdispError f s

/-- GET_DEVICE_INTERFACE_STATE (R398). -/
def execGetDeviceInterfaceState (f : FnId) (s : State) : Host.Outcome State Fault Refusal :=
  tdispRequest "GET_DEVICE_INTERFACE_STATE" f s fun s => .next (s.respond (.tdisp f 0 (bytesOf 1 s.d.fns[f].iface.code)))

/-- GET_TDISP_VERSION (R398). -/
def execGetTdispVersion (f : FnId) (s : State) : Host.Outcome State Fault Refusal :=
  tdispRequest "GET_TDISP_VERSION" f s fun s => .next (s.respond (.tdisp f 0 [Config.tdispByte 0]))

/-- GET_TDISP_CAPABILITIES (R398). -/
def execGetTdispCapabilities (f : FnId) (s : State) : Host.Outcome State Fault Refusal :=
  tdispRequest "GET_TDISP_CAPABILITIES" f s fun s => .next (s.respond (.tdisp f 0 ((List.range 32).map fun i => Config.tdispByte (i + 1))))

/-- The bytes of a receipt (R416). -/
def Receipt.bytes (r : Receipt) : List Byte :=
  bytesOf 2 0x0001 ++ bytesOf 1 r.fn ++ bytesOf 1 (bit (!r.bad.isEmpty)) ++ bytesOf 4 r.seq ++ bytesOf 2 r.gran
  ++ bytesOf 2 r.bad.length ++ bytesOf 4 0 ++ r.bad.flatMap fun e => bytesOf 8 (e.1 + e.2 * 2 ^ 62)

/-- SCRUB_RECEIPT_READ (R8, R416): one of the receipts the device holds, which one being open, with the signatures over it. -/
def execScrubReceiptRead (f : FnId) (s : State) : Host.Outcome State Fault Refusal :=
  let rs := s.d.receipts
  let r := rs[(Config.freeWord s.fresh 1).toNat % rs.length]?
  .next (if s.inFlr f then s else s.respond (.receipt f r (s.d.sign s.fresh (sha384 ((r.map Receipt.bytes).getD [])))))

/-- ATTESTATION_REQUEST (R8, R432): a response with the firmware digest and the signatures of both identity keys over the hash of the
session's transcript, which is open (log 72). -/
def execAttestationRequest (f : FnId) (s : State) : Host.Outcome State Fault Refusal :=
  .next (if s.inFlr f then s
    else s.respond (.attestation f s.d.boot.digestBytes (s.d.sign s.fresh (freeWide 384 s.fresh 120))))

/-- IDE_STREAM_STATE_CHANGE (R394). -/
def execIdeStreamStateChange (f : FnId) (secure : Bool) (s : State) : Host.Outcome State Fault Refusal :=
  .next (s.modD fun d => d.modFn f fun x => { x with ide := secure })

/-! ### Changes at the configuration point -/

/-- CONFIG_SPACE_WRITE (R394, R395, R425, R433): a BAR takes the bits above its size; every one of these registers is a locked
item, also where its value stays. Before boot has trained the memory it is answered with retry status, and before a function-level
reset completes it is discarded. -/
def execConfigSpaceWrite (f : FnId) (r : CfgReg) (v : W64) (s : State) : Host.Outcome State Fault Refusal :=
  atPoint "CONFIG_SPACE_WRITE" f 1 s fun s =>
  if s.d.training then .next (s.respond (.retry f))
  else if s.inFlr f then .next s
  else
  let s := s.modD fun d => d.modFn f fun x => match r with
    | .bar0 => { x with bar0 := v &&& ~~~(BitVec.ofNat 64 (2 ^ 20 - 1)) }
    | .bar2 => { x with bar2 := v &&& ~~~(BitVec.ofNat 64 (2 ^ 14 - 1)) }
    | .bar4 => { x with bar4 := v &&& ~~~(BitVec.ofNat 64 (2 ^ 39 - 1)) }
    | .command => { x with command := v }
  .next (s.fall f 1 false)

/-- A function that an assignment change touches has a locked item changed (R395). -/
def State.touch (s : State) (f : Option FnId) : State :=
  match f with
  | some f => s.fall f 1 false
  | none => s

/-- What works on a cluster for a context that may no longer run there is ended (R383, R385). DESIGN CHOICE: the spec names no stop of it,
and it ends as R396 ends a stream (log 73). -/
def State.evict (s : State) (cl : Fin 32) : State :=
  (coresOf cl).foldl (fun (s : State) c =>
    let k := s.core c
    let stays := match s.ctxOf c with
      | some x => s.ownCluster c x
      | none => true
    if (k.active || k.car.isSome) && !stays then s.endStream c else s) s

/-- The functions that an assignment change touches. -/
def touched (a : Assign) (d : Dev) : List FnId :=
  match a with
  | .cluster c f _ => d.clus[c].owner.toList ++ f.toList
  | .granule g f _ => d.grans[g].owner.toList ++ f.toList
  | .queue q f => [d.qs[q].fn, f]
  | .slot m f => [d.slots[m].fn, f]
  | .mask f _ => [f]

/-- ASSIGNMENT_CHANGE (R142, R382, R383, R393, R395): a machine-level change of an assignment or of a feature mask, which takes effect
whatever the interfaces. -/
def execAssignmentChange (a : Assign) (s : State) : Host.Outcome State Fault Refusal :=
  atPoints "ASSIGNMENT_CHANGE" s (fun s =>
    let fs := (touched a s.d).map some
    let s := match a with
      | .cluster c f sec => (s.modD fun d => { d with clus := d.clus.set c { d.clus[c] with owner := f, sec := sec } }).evict c
      | .granule g f sec => s.modD fun d => { d with grans := d.grans.set g ⟨f, sec⟩ }
      | .queue q f => s.modD fun d => { d with qs := d.qs.set q { d.qs[q] with fn := f } }
      | .slot m f => s.modD fun d => { d with slots := d.slots.set m { d.slots[m] with fn := f } }
      | .mask f v => s.modD fun d => d.modFn f fun x => { x with mask := v }
    .next (fs.foldl State.touch s)) (touched a s.d)

/-- ERROR_REPORT_WRITE (R400): a 1 clears its bit; taken in every interface state (R396). -/
def execErrorReportWrite (f : FnId) (v : W64) (s : State) : Host.Outcome State Fault Refusal :=
  .next (if s.inFlr f then s else s.modD fun d => d.modFn f fun x => { x with err := x.err &&& ~~~v })

/-- Some function's interface gates debug and trace (R399). -/
def Dev.gated (d : Dev) : Bool := d.fns.toList.any fun x => x.iface == .locked || x.iface == .run

/-- DEBUG_TRACE_REQUEST (R399). -/
def execDebugTraceRequest (p : DebugPort) (s : State) : Host.Outcome State Fault Refusal :=
  .next (s.respond (if s.d.gated then .discarded p else .debugData p))

/-- The effects of a per-function reset (R317, R341, R401): the interface unlocks as R397 has it, with no response; queues lose EN
and their pending records; configuration space and error reporting read as at reset. Assignments and the mask stay. -/
def State.resetFn (s : State) (f : FnId) : State :=
  (s.unlock f).modD fun d =>
    let d : Dev := if d.fns[f].status = 1 then d.endCommand f 0x8B else d
    let d : Dev := { d with
      qs := d.qs.map fun (q : LQueue) => if q.fn = f then { q with en := false, recs := [] } else q
      streams := d.streams.filter fun (t : Stream) => t.fn != f }
    d.modFn f fun x => { x with bar0 := 0, bar2 := 0, bar4 := 0, command := 0, cmds := [], err := 0, halves := [] }

/-- FUNCTION_LEVEL_RESET (R401, R433): it is applied, before any other arrival of its cycle; until it completes, by flrDone, what
arrives for the function is discarded. -/
def execFunctionLevelReset (f : FnId) (s : State) : Host.Outcome State Fault Refusal :=
  atPoint "FUNCTION_LEVEL_RESET" f 0 s fun s => .next ((s.resetFn f).modD fun d => { d with flr := setAdd d.flr f.val })

/-- A function-level reset completes (R433): a move of the environment's (log 5). -/
def flrDone (f : FnId) (s : State) : Host.Outcome State Fault Refusal :=
  if s.inFlr f then .next (s.modD fun d => { d with flr := setDel d.flr f.val }) else notEnabled "FUNCTION_LEVEL_RESET"

end Sys2Proof.Machine
end

