-- ==== Sys2Proof/Machine/Errors.lean ====
section
/-! DEFINITION. Errors and poison (R404, R405, R407), retirement of channels, pages and clusters (R409 to R413), tenant scrub
and receipts (R414, R416), on-demand scrub (R408), stack status and monitors (R411, R419 to R421). -/

namespace Sys2Proof.Machine
open Sys2Proof

/-! ### Errors -/

/-- The stack that a 64-byte unit of device memory lies on (R409). -/
def stackOf (unit : Nat) : Fin 8 := Fin.ofNat 8 ((Config.channelOf (unit / 1024)).val / 32)

/-- Changes a stack. -/
def Dev.modStack (d : Dev) (k : Fin 8) (f : Stack → Stack) : Dev := { d with hbm := d.hbm.set k (f d.hbm[k]) }

/-- One more, up to 255 (R411). -/
def sat255 (n : BitVec 16) : BitVec 16 := BitVec.ofNat 16 (min (n.toNat + 1) 255)

/-- The oasis entry of a load (R27, R404). -/
def Core.oasisHas (k : Core) (seq : Nat) : Bool := (k.q.ld ++ k.q.at_).any fun e => e.seq == seq && e.ret == .oasis

/-- A core's unit is poisoned (R404, R405). -/
def Core.poisonUnit (k : Core) : ErrUnit → Core
  | .spadLine _ l => k.modM fun m => { m with spadP := setAdd m.spadP l.val }
  | .cwtEntry _ e => k.modM fun m => { m with cwtP := setAdd m.cwtP e.val }
  | .routine _ e => k.modMx fun m => { m with entP := setAdd m.entP e.val }
  | .microWord _ i => k.modMx fun m => { m with micP := setAdd m.micP i.val }
  | .stagedRoutine _ e => k.modMx fun m => { m with sentP := setAdd m.sentP e.val }
  | .stagedWord _ i => k.modMx fun m => { m with smicP := setAdd m.smicP i.val }
  | .sreg _ r => k.modR fun x => { x with sp := x.sp ||| BitVec.twoPow 64 r }
  | .vreg _ r => k.modR fun x => { x with vp := x.vp ||| BitVec.twoPow 64 r }
  | .greg _ r => k.modR fun x => { x with gp := x.gp ||| BitVec.twoPow 16 r }
  | .mpreg _ r => k.modR fun x => { x with mpp := x.mpp ||| BitVec.twoPow 8 r }
  | .shreg _ r => k.modR fun x => { x with shp := x.shp ||| BitVec.twoPow 16 r }
  | .xlatch _ r => k.modR fun x => { x with xp := x.xp ||| BitVec.twoPow 16 r }
  | .bankRow _ b r => k.modM fun m => { m with bankP := setAdd m.bankP (32 * b.val + r.val) }
  | .slHalf _ l h => k.modM fun m => { m with slP := m.slP ||| BitVec.twoPow 8 (2 * l.val + bit h) }
  | .spill _ u => k.modM fun m => { m with spillP := setAdd m.spillP u.val }
  | .oasis _ seq =>
    let mark := fun (e : QEnt) => if e.seq = seq ∧ e.ret = .oasis then { e with poison := true } else e
    k.modQ fun q => { q with ld := q.ld.map mark, at_ := q.at_.map mark }
  | .memUnit _ | .supCwt _ _ | .wsUnit _ _ => k

/-- The core of a unit of storage. -/
def coreOf : ErrUnit → Option CoreId
  | .spadLine c _ | .cwtEntry c _ | .routine c _ | .microWord c _ | .stagedRoutine c _ | .stagedWord c _ | .sreg c _ | .vreg c _ | .greg c _ | .mpreg c _
  | .shreg c _ | .xlatch c _ | .bankRow c _ _ | .slHalf c _ _ | .spill c _ | .oasis c _ => some c
  | .memUnit _ | .supCwt _ _ | .wsUnit _ _ => none

/-- A unit that is there. -/
def State.hasUnit (s : State) : ErrUnit → Bool
  | .memUnit u => decide (64 * u < Config.devBytes)
  | .wsUnit _ u => decide (64 * u < Config.wsBytes)
  | .oasis c seq => (s.core c).oasisHas seq
  | _ => true

/-- UNCORRECTABLE_ERROR (R393, R404, R405, R407, R411): the unit is poisoned. One in a supervisor control word table is an
error of the function. -/
def execUncorrectableError (u : ErrUnit) (s : State) : Host.Outcome State Fault Refusal :=
  if !s.hasUnit u then notEnabled "UNCORRECTABLE_ERROR"
  else
    match coreOf u, u with
    | some c, _ => .next (s.modCore c fun k => k.poisonUnit u)
    | none, .memUnit n => .next (s.modD fun d =>
        { d with memP := setAdd d.memP n }.modStack (stackOf n) fun x => { x with uec := sat255 x.uec })
    | none, .wsUnit die n => .next (s.modD fun d => { d with wsP := d.wsP.set die (setAdd d.wsP[die] n) })
    | none, .supCwt f e => .next ((s.modD fun d => d.modFn f fun x => { x with scwtP := setAdd x.scwtP e.val }).fall f 4 false)
    | none, _ => .next s

/-- CORRECTABLE_ERROR (R404, R411): corrected in the data and in the store; a stack counts it. -/
def execCorrectableError (u : ErrUnit) (s : State) : Host.Outcome State Fault Refusal :=
  if !s.hasUnit u then notEnabled "CORRECTABLE_ERROR"
  else
    match u with
    | .memUnit n => .next (s.modD fun d => d.modStack (stackOf n) fun x => { x with cec := sat255 x.cec })
    | _ => .next s

/-! ### Retirement -/

/-- The function that the granule of a page is assigned to. -/
def Dev.pageOwner (d : Dev) (page : Nat) : Option FnId := (d.gran (page * 65536)).bind Gran.owner

/-- A page is retired with its data lost; in an assigned granule that is an uncorrectable error of the function (R409). -/
def State.losePage (s : State) (page : Nat) : State :=
  let s := s.modD fun d => { d with
    lost := setAdd d.lost page, moves := tabDel d.moves page, moving := setDel d.moving page }
  match s.d.pageOwner page with
  | some f => s.fall f 4 false
  | none => s

/-- Where a page of device memory lies: at its own place, or at the repair page it was redirected to (R409). -/
def Dev.placeOf (d : Dev) (page : Nat) : Nat := (tabGet d.moved page).getD page

/-- A page lies on a channel, or is to move there. -/
def Dev.onChannel (d : Dev) (g : Fin 256) (page : Nat) : Bool :=
  Config.channelOf (d.placeOf page) == g || (tabGet d.moves page).any fun p => Config.channelOf p == g

/-- One page of a retiring channel (R409). -/
def State.retirePage (s : State) (k : Fin 8) (page : Nat) : State :=
  if s.d.lost.contains page then s
  else
    match (if (s.d.pageOwner page).isSome then s.d.hbm[k].pool else []) with
    | r :: rs => s.modD fun d => { d with moves := tabSet d.moves page r }.modStack k fun x => { x with pool := rs }
    | [] => s.losePage page

/-- The pages of device memory that lie on a channel (R409). -/
def Dev.channelPages (d : Dev) (g : Fin 256) : List Nat := (List.range 7812500).filter fun p => d.onChannel g p

/-- CHANNEL_RETIRE (R409, R411, R412): the channel's bit is set, and no repair page on it is free any more; each of its pages, in the
order of the list, waits for its move, is lost, or is retired. -/
def execChannelRetire (k : Fin 8) (ch : Fin 32) (pages : List Nat) (s : State) : Host.Outcome State Fault Refusal :=
  let g : Fin 256 := ⟨32 * k.val + ch.val, by omega⟩
  if s.d.hbm[k].rch.getLsbD ch.val || !(pages.all fun p => (s.d.channelPages g).contains p)
      || !((s.d.channelPages g).all fun p => pages.contains p) then notEnabled "CHANNEL_RETIRE"
  else
    let s := s.modD fun d => d.modStack k fun x => { x with
      rch := x.rch ||| BitVec.twoPow 32 ch.val, pool := x.pool.filter fun p => Config.channelOf p != g }
    .next ((pages.foldl (fun (s : State) p => s.retirePage k p) s).modD Dev.qosCheck)

/-- PAGE_MOVE (R410): the page is locked from its first read; then redirected, its bytes and its address as they were, and
unlocked. -/
def execPageMove (_k : Fin 8) (page : Nat) (redirect : Bool) (s : State) : Host.Outcome State Fault Refusal :=
  match tabGet s.d.moves page with
  | some _ =>
    if redirect ≠ s.d.moving.contains page then notEnabled "PAGE_MOVE"
    else if redirect then .next (s.modD fun d => d.redirect page)
    else .next (s.modD fun d => { d with moving := setAdd d.moving page })
  | none => notEnabled "PAGE_MOVE"

/-- A cluster could take the place of another (R413). -/
def State.mayReplace (s : State) (cl r : Fin 32) : Bool :=
  let a := s.d.clus[cl]
  let b := s.d.clus[r]
  r != cl && b.owner == a.owner && b.owner.isSome && b.sec == a.sec && !b.retired
  && (coresOf r).all fun c =>
    let k := s.core c
    !k.active && k.enginesDone && (s.boundCar c).isNone && (k.lineCar.all fun y => (s.d.car y).isNone)

/-- A caravan that keeps its bindings between runs holds live lines in a cluster (R413). -/
def State.holdsLines (s : State) (cl : Fin 32) (x : Caravan) : Bool :=
  field x.rec_.toNat 706 1 == 0 && ((coresOf cl).any fun c => (s.core c).lineCar == some x.id)

/-- What a core of a retired cluster holds goes to the same position of the replacement (R413): its lines, and, where it is
bound, its state for the caravan. -/
def Core.moveTo (old new : Core) : Core :=
  let k := { new with
    m := { new.m with spad := old.m.spad, spadP := old.m.spadP, empty := old.m.empty }
    lineCtx := old.lineCtx
    lineCar := old.lineCar }
  if old.car.isNone then k
  else { k with
    r := { k.r with sh := old.r.sh, shp := old.r.shp }
    own := old.own
    w := { old.w with aown := new.w.aown, slice := new.w.slice }
    m := { k.m with cwt := old.m.cwt, cwtP := old.m.cwtP }
    mx := { k.mx with ent := old.mx.ent, mic := old.mx.mic, sent := old.mx.sent, smic := old.mx.smic, entP := old.mx.entP
                      micP := old.mx.micP, sentP := old.mx.sentP, smicP := old.mx.smicP }
    ph := old.ph
    q := { k.q with earr := old.q.earr }
    car := old.car
    unbind := old.unbind }

/-- The lines of some caravans move from a retired cluster to its replacement (R413). -/
def State.moveCluster (s : State) (cl r : Fin 32) (xs : List Caravan) : State :=
  let s := (List.range 10).foldl (fun (s : State) p =>
    let a := coreAt cl.val p
    let k := s.core a
    if xs.any fun x => k.lineCar == some x.id then
      (s.modCore (coreAt r.val p) fun n => k.moveTo n).modCore a fun k => (k.vacate).openLines s.fresh none
    else s) s
  let ids := xs.map Caravan.id
  s.modD fun d => { d with
    cars := d.cars.map fun x => if ids.contains x.id ∧ x.clus = cl.val then { x with clus := r.val, die := dieOfClus r.val } else x
    recs := d.recs.map fun x => if ids.contains x.car ∧ x.hclu = cl.val then { x with hclu := r.val } else x }

/-- A caravan whose lines have no replacement ends with completion word 8 (R413, R326). -/
def State.endUnplaced (s : State) : List Caravan → Option State
  | [] => some s
  | x :: xs =>
    let r := x.rec_.toNat
    (s.completeWrite x.queue (field r 576 64) (2 ^ 63 + 8)).bind fun s =>
      let s := if field r 704 1 = 1 then s.modD fun d => { d with msix := (d.qs[x.queue].fn, 0) :: d.msix } else s
      (s.endCars fun y => y.id == x.id).releaseLines.endUnplaced xs

/-- CLUSTER_RETIRE (R413): the cluster leaves service and its cores stop with PREEMPT; once they are all idle, the lines that
are live move to a replacement, or, where none is free, their caravans end. -/
def execClusterRetire (cl : Fin 32) (repl : Option (Fin 32)) (s : State) : Host.Outcome State Fault Refusal :=
  let idle := (coresOf cl).all fun c => !(s.core c).active && (s.core c).enginesDone
  let begun := s.d.clus[cl].retired
  let s := if begun then s
    else
      let s := s.modD fun d => { d with clus := d.clus.set cl { d.clus[cl] with retired := true } }
      let s := (coresOf cl).foldl (fun (s : State) c => s.modCore c fun k =>
        if k.run.isSome && k.w.pl == 0 then { k with preempt := true } else k) s
      match s.d.clus[cl].owner with
      | some f => s.modD fun d => d.report f 128
      | none => s
  let xs := s.d.cars.filter fun x => s.holdsLines cl x
  if !idle then (if begun then notEnabled "CLUSTER_RETIRE" else .next s)
  else
    match repl with
    | some r => if s.mayReplace cl r then .next (s.moveCluster cl r xs) else notEnabled "CLUSTER_RETIRE"
    | none =>
      if xs.isEmpty then .next s
      else if (List.finRange 32).any fun r => s.mayReplace cl r then notEnabled "CLUSTER_RETIRE"
      else orWait "CLUSTER_RETIRE" (s.endUnplaced xs)

/-! ### Scrub -/

/-- The pages of a granule (R382). -/
def granPages (g : Fin 477) : List Nat := upFrom (g.val * 16384) (if g.val = 476 then 13716 else 16384)

/-- The exceptions of one page of a scrub: each unit that failed, and the page where it goes on failing (R414, R416). -/
def pageNotes (page : Nat) : List (Nat × Bool) → List (Nat × Nat) × Bool
  | [] => ([], false)
  | (u, still) :: us =>
    if still then ([(page * 65536 + 64 * u, 2), (page * 65536, 3)], true)
    else
      let (ns, r) := pageNotes page us
      ((page * 65536 + 64 * u, 2) :: ns, r)

/-- The scrub of a granule ends with its receipt; the device keeps the latest 256 (R414, R416). Every retired page of the granule is
listed, also one retired after its own scrub (R409, R422). -/
def State.endScrub (s : State) (g : Fin 477) : State :=
  s.modD fun d =>
    let mine := d.notes.filter fun n => n.1 / 2 ^ 30 == g.val
    let late := d.lost.filter fun p => p * 65536 / 2 ^ 30 == g.val && !mine.any fun n => n.1 == p * 65536 && n.2 != 2
    let mine := mine ++ late.map fun p => (p * 65536, 1)
    let fn := (tabGet d.scrubFn g.val).getD (Config.freeByte s.fresh (2 ^ 81)).toNat
    let r : Receipt := ⟨d.nrec + 1, fn, g.val, sortBy (fun (a b : Nat × Nat) => Nat.ble a.1 b.1) mine⟩
    { d with
      receipts := (r :: d.receipts).take 256
      nrec := d.nrec + 1
      scrubG := setDel d.scrubG g.val
      scrubbed := d.scrubbed.filter fun p => p * 65536 / 2 ^ 30 != g.val
      scrubFn := tabDel d.scrubFn g.val
      notes := d.notes.filter fun n => n.1 / 2 ^ 30 != g.val }

/-- The accesses that a core makes next, with the bundle that each belongs to and the pages it touches (R414, R415). -/
def State.nextAccesses (s : State) (c : CoreId) : List (W64 × List Nat) :=
  let k := s.core c
  let pages := fun (acc : Acc) (a n : Nat) => match s.placesVa c acc 3 a n with
    | .ok ps => ps.flatMap fun p => Dev.pagesOf p.1.pa p.2
    | .error _ => []
  let head := fun (q : Nat) (acc : Acc) (es : List QEnt) => match es.find? fun e => !e.done with
    | some e =>
      if e.space == .glob && e.fault.isNone && s.mayGo c q e then
        [(e.ipc, pages acc (e.addr.toNat + e.prog) (s.unitLen c e.space e.addr.toNat e.size e.prog))] else []
    | none => []
  let copy := fun (ipc : W64) (acc : Acc) (sp : Space) (a : Nat) => if sp = .glob then [(ipc, pages acc a 1)] else []
  head 0 .read k.q.ld ++ head 1 .write k.q.st ++ head 4 (.atomic false) k.q.at_
  ++ (match k.q.cp with
    | x :: _ => copy x.ipc .write x.dsp (x.dst.toNat + x.prog) ++ (if x.fill then [] else copy x.ipc .read x.ssp (x.src.toNat + x.prog))
    | [] => [])
  ++ (if k.atBoundary && k.f.next.isNone then
      [(k.f.pc, if k.w.pl = 0 then pages .fetch k.f.pc.toNat 4 else Dev.pagesOf k.f.pc.toNat 4)] else [])

/-- The pages that host or peer accesses reach for next. -/
def hostWaits : Option Move → List Nat
  | some (.act (.hostMemoryRead _ off n _)) => Dev.pagesOf off n
  | some (.act (.hostMemoryWrite _ off bs _)) => Dev.pagesOf off bs.length
  | some (.act (.ergPeerAccess _ (.read pa n _))) => Dev.pagesOf pa n
  | some (.act (.ergPeerAccess _ (.write pa bs _))) => Dev.pagesOf pa bs.length
  | some (.act (.ergPeerAccess _ (.atomic _ pa _ _ _ _))) => Dev.pagesOf pa 8
  | _ => []

/-- The pending page of a granule that the scrubber may take next: one that an access waits for, or the lowest where none is waited
for (R414, R415). -/
def State.scrubNext (s : State) (g : Fin 477) (page : Nat) : Bool :=
  let left := (granPages g).filter fun p => !s.d.scrubbed.contains p
  let waits := (((List.finRange 320).flatMap fun c => (s.nextAccesses c).flatMap Prod.snd) ++ hostWaits s.agenda.head?).filter left.contains
  if waits.isEmpty then left.head? == some page else waits.contains page

/-- The accesses that waited for a page record the event 0x02 (R307, R415). -/
def State.noteWaits (s : State) (page : Nat) : State :=
  let hits := (List.finRange 320).flatMap fun c => ((s.nextAccesses c).filter fun a => a.2.contains page).map fun a => (c, a.1)
  hits.foldl (fun (s : State) h => s.modCore h.1 fun k => k.event 0x02 h.2) s

/-- TENANT_SCRUB_PAGE (R414 to R416): a pending page, one that an access waits for or else the next in address order, is zeroed under
slot 0 and verified, a retired one noted; after the last page the receipt is issued. DESIGN CHOICE: for a granule with no scrub under
way it is the first page of one that the machine level starts (log 100). -/
def execTenantScrubPage (g : Fin 477) (page : Nat) (bad : List (Nat × Bool)) (s : State) : Host.Outcome State Fault Refusal :=
  let s := if s.d.scrubG.contains g.val then s else s.modD fun d => d.startScrub [g.val]
  let finish := fun (s : State) => if (granPages g).all fun p => s.d.scrubbed.contains p then s.endScrub g else s
  if (granPages g).all fun p => s.d.scrubbed.contains p then .next (finish s)
  else if !s.scrubNext g page || s.d.moving.contains page
      || bad.any (fun b => decide (1024 ≤ b.1)) then notEnabled "TENANT_SCRUB_PAGE"
  else
    let s := s.noteWaits page
    if s.d.lost.contains page then .next (finish (s.modD fun d => d.scrubPage page))
    else
      let (ns, retired) := pageNotes page bad
      let s := s.modD fun d => { d.scrubPage page with notes := d.notes ++ ns }
      .next (finish (if retired then s.losePage page else s))

/-- ON_DEMAND_SCRUB (R408): units that need it are corrected; poison stays. -/
def execOnDemandScrub (unit n : Nat) (s : State) : Host.Outcome State Fault Refusal :=
  if 64 * (unit + n) ≤ Config.devBytes then .next (s.modD fun d => d.ask 16 (64 * unit) (64 * n)) else notEnabled "ON_DEMAND_SCRUB"

/-! ### Status and monitors -/

/-- STACK_STATUS_WRITE (R411): a write of any value clears the error counts. -/
def execStackStatusWrite (f : FnId) (k : Fin 8) (_v : W64) (s : State) : Host.Outcome State Fault Refusal :=
  if s.open f then .next (s.modD fun d => d.modStack k fun x => { x with cec := 0, uec := 0 }) else .next s

/-- The control word of a monitor is written (R419): a quantity that does not apply is stored as 0; CLR resets the counts. -/
def Mon.control (m : Mon) (v : W64) (applies : Nat → Bool) : Mon :=
  let q := (v.toNat % 8)
  let m := { m with qty := BitVec.ofNat 7 ((if applies q then q else 0) + field v.toNat 3 4 * 8) }
  if v.getLsbD 7 then { m with mn := 0xFFFFFFFF, mx := 0, bins := Vector.replicate 16 0 } else m

/-- MONITOR_CONTROL_WRITE (R419, R421): on the clusters of the function, and on controllers with a SEL of a slot it owns. -/
def execMonitorControlWrite (f : FnId) (m : MonId) (v : W64) (s : State) : Host.Outcome State Fault Refusal :=
  if !s.open f then .next s
  else
    match m with
    | .cluster c =>
      if s.d.clus[c].owner = some f then
        .next (s.modD fun d => { d with monC := d.monC.set c (d.monC[c].control v fun q => q == 1 || q == 2 || q == 4 || q == 5) })
      else .next s
    | .channel ch =>
      let slot : Fin 16 := Fin.ofNat 16 (field v.toNat 3 4)
      if s.d.slots[slot].fn = f then
        .next (s.modD fun d => { d with
          monM := tabSet d.monM ch.val (((tabGet d.monM ch.val).getD .reset).control v fun q => q == 3) })
      else .next s

end Sys2Proof.Machine
end

