-- ==== Sys2Proof/Machine/HostLink.lean ====
section
/-! DEFINITION. The host's windows (R425 to R428), peer accesses over the Erg fabric (R268, R286), device reset (R433) and the
package's thermal limits (R434). -/

namespace Sys2Proof.Machine
open Sys2Proof

/-! ### The configuration window -/

/-- The binding register of a queue (R317). -/
def LQueue.binding (q : LQueue) : W64 :=
  BitVec.ofNat 64 (pack [1, 3, 4, 3, 1, 12] [bit q.en, q.prio.toNat, q.slot.toNat, q.fn.val, bit q.erg, q.ctx.toNat])

/-- The status register of a queue (R318). -/
def LQueue.status (q : LQueue) : W64 := BitVec.ofNat 64 (pack [6, 1, 1] [q.recs.length, bit q.ovf, bit q.err])

/-- The register of a model slot (R336). -/
def MSlot.word (m : MSlot) : W64 :=
  BitVec.ofNat 64 (pack [10, 8, 8, 3, 1] [m.minbw.toNat, m.weight.toNat, m.dw.toNat, m.fn.val, bit m.valid])

/-- The status of a stack (R411). -/
def Stack.word (x : Stack) : W64 :=
  BitVec.ofNat 64 (pack [32, 16, 8, 8] [x.rch.toNat, min (x.pool.length / 256) 0xFFFF, x.cec.toNat, x.uec.toNat])

/-- A word of a monitor block (R427). -/
def Mon.word (m : Mon) (off : Nat) : W64 :=
  if off = 0 then m.qty.setWidth 64
  else if off = 8 then m.mn.setWidth 64
  else if off = 16 then m.mx.setWidth 64
  else (m.bins.toList.getD ((off - 24) / 8) 0).setWidth 64

/-- THERM (R434). -/
def Dev.therm (d : Dev) : W64 := BitVec.ofNat 64 (d.tmax.toNat + 256 * bit d.warn)

/-- What an aligned 8-byte read of a function's configuration window returns (R421, R426, R427). -/
def Dev.cfgRead (d : Dev) (f : FnId) (off : Nat) : W64 :=
  let x := d.fns[f]
  if off % 8 ≠ 0 then BitVec.allOnes 64
  else if off = 0 then x.cmd
  else if off = 0x8 then x.opa
  else if off = 0x10 then x.opb
  else if off = 0x18 then x.status
  else if off = 0x100 then x.err
  else if off = 0x108 then x.hkey.setWidth 64
  else if off = 0x110 then d.therm
  else if 0x200 ≤ off ∧ off < 0x400 then
    let q := d.qs[Fin.ofNat 64 ((off - 0x200) / 8)]
    if q.fn = f then q.binding else 0
  else if 0x400 ≤ off ∧ off < 0x600 then
    let q := d.qs[Fin.ofNat 64 ((off - 0x400) / 8)]
    if q.fn = f then q.status else 0
  else if 0x600 ≤ off ∧ off < 0x680 then d.slots[Fin.ofNat 16 ((off - 0x600) / 8)].word
  else if 0x700 ≤ off ∧ off < 0x740 then d.hbm[Fin.ofNat 8 ((off - 0x700) / 8)].word
  else if 0x1000 ≤ off ∧ off < 0x3000 ∧ off % 256 < 152 then
    let c : Fin 32 := Fin.ofNat 32 ((off - 0x1000) / 256)
    if d.clus[c].owner = some f then d.monC[c].word (off % 256) else 0
  else if 0x3000 ≤ off ∧ off < 0x13000 ∧ off % 256 < 152 then
    match tabGet d.monM ((off - 0x3000) / 256) with
    | some m => if m.qty.toNat % 8 = 3 ∧ d.slots[Fin.ofNat 16 (m.qty.toNat / 8)].fn = f then m.word (off % 256) else 0
    | none => 0
  else 0

/-- What a read of n bytes of a function's configuration window returns (R426): all ones but for an aligned one of 8 bytes. -/
def Dev.cfgBytes (d : Dev) (f : FnId) (off n : Nat) : List Byte :=
  if n = 8 then bytesOf 8 (d.cfgRead f off).toNat else List.replicate n 0xFF

/-- What a host read of a byte of a function's launch window returns (R319, R396, R426): all ones in ERROR, zero at a reserved offset; a
launch region reads as an open value, the spec giving none. -/
def Dev.launchRead (d : Dev) (f : FnId) (fresh off : Nat) : Byte :=
  if d.fns[f].iface = .error then 0xFF
  else if 128 ≤ off % 256 ∨ 2 ^ 14 ≤ off then 0
  else Config.freeByte fresh (2 ^ 84 + off)

/-- HKEY_WRITE (R428): discarded in CONFIG_LOCKED, RUN and ERROR, and where it names a slot the function does not own. -/
def execHkeyWrite (f : FnId) (v : W64) (s : State) : Host.Outcome State Fault Refusal :=
  let owned : Bool := match s.d.keySlot (v.setWidth 12) with
    | some k => k.fn == some f && v.setWidth 12 != (0 : BitVec 12)
    | none => false
  if s.d.fns[f].iface = .unlocked ∧ owned ∧ !s.inFlr f then .next (s.modD fun d => d.modFn f fun x => { x with hkey := v.setWidth 13 })
  else .next s

/-- THERM_WRITE (R434): a 1 clears WARN. -/
def execThermWrite (f : FnId) (v : W64) (s : State) : Host.Outcome State Fault Refusal :=
  if s.open f then .next (s.modD fun d => { d with warn := d.warn && !v.getLsbD 8 }) else .next s

/-- The offsets of the configuration window that have a row of their own. -/
def ownRow (off : Nat) : Bool :=
  off == 0 || off == 0x100 || off == 0x108 || off == 0x110 || (decide (0x200 ≤ off) && decide (off < 0x600))
  || (decide (0x700 ≤ off) && decide (off < 0x740))
  || (decide (0x1000 ≤ off) && decide (off < 0x13000) && off % 256 == 0)

/-- A write to the configuration window that is not of 8 bytes and aligned: it is discarded, whichever register it meets (R426). -/
def narrowWrite (off size : Nat) (s : State) : Host.Outcome State Fault Refusal :=
  if size ≠ 8 ∨ off % 8 ≠ 0 then .next s else notEnabled "NARROW WRITE"

/-- REGISTER_WRITE (R426, R427): a write of 8 bytes. OPA and OPB take the value; a read-only or reserved register, an offset that is not
aligned, and a window in ERROR discard it. A write of another size is narrowWrite. -/
def execRegisterWrite (f : FnId) (off : Nat) (v : W64) (s : State) : Host.Outcome State Fault Refusal :=
  if off % 8 ≠ 0 then narrowWrite off 8 s
  else if ownRow off then notEnabled "REGISTER_WRITE"
  else if !s.open f then .next s
  else if off = 0x8 then .next (s.modD fun d => d.modFn f fun x => { x with opa := v })
  else if off = 0x10 then .next (s.modD fun d => d.modFn f fun x => { x with opb := v })
  else .next s

/-! ### The memory window -/

/-- The key of the memory window, where it is open and its slot the function's (R425, R428). -/
def Dev.windowKey (d : Dev) (f : FnId) : Option KeyId :=
  let h := d.fns[f].hkey
  if !h.getLsbD 12 || d.fns[f].iface == .error then none
  else ((d.keySlot (h.setWidth 12)).filter fun k => k.fn == some f && h.setWidth 12 != (0 : BitVec 12)).map KeySlot.key

/-- A byte of device memory that the memory window of a function reaches (R425). -/
def Dev.windowOk (d : Dev) (f : FnId) (trusted : Bool) (pa : Nat) : Bool :=
  match d.gran pa with
  | some g => g.owner == some f && (!g.sec || (d.fns[f].iface == .run && trusted))
  | none => false

/-- HOST_MEMORY_READ (R396, R405, R425): deciphered with HKEY; all ones where the window does not reach. Before a function-level reset
completes it is discarded (R433). -/
def execHostMemoryRead (f : FnId) (off n : Nat) (trusted : Bool) (s : State) : Host.Outcome State Fault Refusal :=
  if s.inFlr f then .next s
  else
  match s.d.windowKey f with
  | none => .next (s.respond (.hostData f (List.replicate n 0xFF) false))
  | some key =>
    let ok := fun (a : Nat) => s.d.windowOk f trusted a
    if (upFrom off n).any fun a => ok a && s.d.locked a 1 then notEnabled "HOST_MEMORY_READ"
    else
      let bs := (upFrom off n).map fun a => if ok a then s.d.byteAt ⟨key, none⟩ a else 0xFF
      let bad := (upFrom off n).any fun a => ok a && (s.d.memPoisoned a 1 || s.d.gone a 1)
      .next ((s.modD fun d => (upFrom off n).foldl (fun d a => if ok a then d.settlePages a 1 else d)
        (if (upFrom off n).any ok then d.ask 16 off n else d)).respond (.hostData f bs bad))

/-- The parts of a write that the window reaches, split where granules meet. -/
def windowParts (d : Dev) (f : FnId) (trusted : Bool) : Nat → Nat → List Byte → List (Nat × List Byte)
  | 0, _, _ => []
  | _, _, [] => []
  | fuel + 1, a, bs =>
    let room := 2 ^ 30 - a % 2 ^ 30
    let room := if a < Config.devBytes then min room (Config.devBytes - a) else room
    let rest := windowParts d f trusted fuel (a + room) (bs.drop room)
    if d.windowOk f trusted a then (a, bs.take room) :: rest else rest

/-- HOST_MEMORY_WRITE (R348, R395, R396, R425): enciphered with HKEY, or discarded. -/
def execHostMemoryWrite (f : FnId) (off : Nat) (bs : List Byte) (trusted : Bool) (s : State) :
    Host.Outcome State Fault Refusal :=
  match (s.d.windowKey f).filter fun _ => !s.inFlr f with
  | none => .next s
  | some key =>
    let ps := windowParts s.d f trusted 512 off bs
    if ps.any fun p => s.d.locked p.1 p.2.length then notEnabled "HOST_MEMORY_WRITE"
    else
      let ps := ps.filter fun p => !s.d.gone p.1 p.2.length
      .next ((s.modD fun d => ps.foldl (fun d p => (d.ask 16 p.1 p.2.length).writeMem ⟨key, none⟩ p.1 p.2) d).textWritten
        (ps.map fun p => (p.1, p.2.length)))

/-! ### Peer devices -/

/-- ERG_PEER_ACCESS (R268, R280, R286, R405, R409): a peer's read, write or atomic at its place in this device's memory, or its
partial of a window round. An atomic on a poisoned unit, and any access to a lost page, is not performed, and the answer says so. -/
def execErgPeerAccess (dev : Nat) (a : PeerAccess) (s : State) : Host.Outcome State Fault Refusal :=
  let no := notEnabled "ERG_PEER_ACCESS"
  let key := fun (k : BitVec 12) (pa n : Nat) =>
    if Config.devBytes < pa + n || s.d.locked pa n then none else (s.d.keySlot k).map fun x => Opener.mk x.key none
  let lost := .next (s.respond (.peerData dev [] true))
  match a with
  | .read pa n k =>
    match key k pa n with
    | some id =>
      if s.d.gone pa n then lost
      else .next ((s.modD fun d => (d.ask 16 pa n).settlePages pa n).respond
        (.peerData dev (s.d.readMem id pa n) (s.d.memPoisoned pa n)))
    | none => no
  | .write pa bs k =>
    match key k pa bs.length with
    | some id =>
      if s.d.gone pa bs.length then lost
      else .next ((s.modD fun d => (d.ask 16 pa bs.length).writeMem id pa bs).textWritten [(pa, bs.length)])
    | none => no
  | .atomic op pa w64 v cmp k =>
    let n := if w64 then 8 else 4
    match key k pa n with
    | some id =>
      if pa % n ≠ 0 then no
      else if s.d.gone pa n || s.d.memPoisoned pa n then lost
      else
        let bs := s.d.readMem id pa n
        let new := redApply op w64 (BitVec.ofNat 64 (natOf bs)) v cmp
        .next (((s.modD fun d => (d.ask 16 pa n).writeMem id pa (bytesOf n new.toNat)).textWritten [(pa, n)]).respond (.peerData dev bs false))
    | none => no
  | .partial_ loc op w64 k v =>
    let s' := s.modD fun d => if d.locs.any fun w => w.loc == loc then d
      else { d with locs := d.locs ++ [⟨loc, (d.winSet loc).1, (d.winSet loc).2, [], [], [], op, w64, k, 0⟩] }
    match s'.d.locs.find? fun w => w.loc == loc with
    | some w =>
      if dev = thisDevice ∨ !w.parts.contains dev ∨ w.partials.any (fun p => p.1 == dev) then no
      else .next (s'.modD fun d => d.modLoc loc fun w =>
        let w := if w.partials.any fun p => p.1 == thisDevice then w else { w with op := op, w64 := w64, key := k }
        { w with partials := w.partials ++ [(dev, v)] })
    | none => no

/-! ### Reset and heat -/

/-- A firmware image is accepted (R8, R431): both signatures verify over its digest, its keys match the fused digests, and its version is
not behind the counter. -/
def Boot.accepts (b : Boot) (i : Image) : Bool :=
  i.ecdsaOk && i.lmsOk && i.ecdsa == b.ecdsa && i.lms == b.lms && decide (b.counter.toNat ≤ i.version)

/-- The image that boot takes: slot A's, or slot B's where A fails; none where neither is accepted (R431). -/
def Boot.choose (b : Boot) : Option Image := (b.slotA.filter b.accepts).orElse fun _ => b.slotB.filter b.accepts

/-- The device after a reset: what fuses, flash and the retirement record hold stays, and so do the host's memory, what
the outside has received, and the model's own choices; with no image accepted it stays in reset (R431, R433). -/
def State.resetDevice (s : State) : State :=
  { State.reset with
    agenda := s.agenda
    fresh := s.fresh
    d := { Dev.reset with
      mem := s.d.mem.filter fun e => decide (Config.devBytes ≤ e.1)
      hostP := s.d.hostP
      hostE := s.d.hostE
      training := true
      fns := s.d.fns.map fun x => { Fn.reset with nrand := x.nrand }
      nctx := s.d.nctx
      boot := { s.d.boot with image := s.d.boot.choose }
      inReset := s.d.boot.choose.isNone
      clus := s.d.clus.map fun c => ⟨none, false, c.retired⟩
      hbm := s.d.hbm.map fun x => ⟨x.rch, x.pool, 0, 0⟩
      moved := s.d.moves.foldl (fun m p => tabSet m p.1 p.2) s.d.moved
      lost := s.d.lost
      ckpts := s.d.ckpts
      msix := s.d.msix
      resps := s.d.resps } }

/-- The hottest junction sensor reads TWARN or more: TMAX shows it, WARN is set with its vectors, and no caravan is admitted (R430,
R434). -/
def Dev.heat (d : Dev) (t : BitVec 8) : Dev :=
  { d with
    tmax := t, warn := true, admHold := true
    msix := if d.warn then d.msix else (List.finRange 8).map (fun f => (f, 3)) ++ d.msix }

/-- DEVICE_RESET (R433): every kind loses the same state, and boot leaves every granule pending scrub. -/
def execDeviceReset (_k : ResetKind) (s : State) : Host.Outcome State Fault Refusal := .next s.resetDevice

/-- TWARN_REACHED (R430, R434): WARN is set and no caravan is admitted. -/
def execTwarnReached (t : BitVec 8) (s : State) : Host.Outcome State Fault Refusal :=
  if t < 100 then notEnabled "TWARN_REACHED"
  else .next (s.modD fun d => d.heat t)

/-- TMAX_FALLS_BELOW_TWARN (R434): 5 °C below, the dispatcher admits again. -/
def execTmaxFallsBelowTwarn (t : BitVec 8) (s : State) : Host.Outcome State Fault Refusal :=
  if 95 < t then notEnabled "TMAX_FALLS_BELOW_TWARN" else .next (s.modD fun d => { d with tmax := t, admHold := false })

/-- TTRIP_REACHED (R393, R434): every interface falls, every core stops with no context area written, and the device holds
itself in reset. -/
def execTtripReached (t : BitVec 8) (s : State) : Host.Outcome State Fault Refusal :=
  if t < 110 then notEnabled "TTRIP_REACHED"
  else
    let s := (List.finRange 8).foldl (fun (s : State) f => s.fall f 5 true) s
    .next { s with cores := s.cores.map Core.vacate, d := { s.d.heat t with inReset := true } }

end Sys2Proof.Machine
end

