-- ==== Sys2Proof/Machine/Dispatch.lean ====
section
/-! DEFINITION. The meaning of every step, arm by arm: one direct call each. -/

namespace Sys2Proof.Machine
open Sys2Proof

/-- One step of the table, performed. -/
def exec (i : Instr) (s : State) : Host.Outcome State Fault Refusal :=
  match i with
  | .bundleIssue c => Sys2Proof.Machine.execBundleIssue c s
  | .heldBundleIssue c => Sys2Proof.Machine.execHeldBundleIssue c s
  | .resultWriteback c => Sys2Proof.Machine.execResultWriteback c s
  | .loadDataReturn c seq => Sys2Proof.Machine.execLoadDataReturn c seq s
  | .landingDue c => Sys2Proof.Machine.execLandingDue c s
  | .bankLanded c b => Sys2Proof.Machine.execBankLanded c b s
  | .add o => Sys2Proof.Machine.execAdd o s
  | .sub o => Sys2Proof.Machine.execSub o s
  | .mul o => Sys2Proof.Machine.execMul o s
  | .mulh o => Sys2Proof.Machine.execMulh o s
  | .min o => Sys2Proof.Machine.execMin o s
  | .max o => Sys2Proof.Machine.execMax o s
  | .mov o => Sys2Proof.Machine.execMov o s
  | .and o => Sys2Proof.Machine.execAnd o s
  | .or o => Sys2Proof.Machine.execOr o s
  | .xor o => Sys2Proof.Machine.execXor o s
  | .andn o => Sys2Proof.Machine.execAndn o s
  | .shl o => Sys2Proof.Machine.execShl o s
  | .shr o => Sys2Proof.Machine.execShr o s
  | .rotl o => Sys2Proof.Machine.execRotl o s
  | .sel o => Sys2Proof.Machine.execSel o s
  | .fma o => Sys2Proof.Machine.execFma o s
  | .fms o => Sys2Proof.Machine.execFms o s
  | .div o => Sys2Proof.Machine.execDiv o s
  | .rem o => Sys2Proof.Machine.execRem o s
  | .clz o => Sys2Proof.Machine.execClz o s
  | .popc o => Sys2Proof.Machine.execPopc o s
  | .cvt o => Sys2Proof.Machine.execCvt o s
  | .cmpEq o => Sys2Proof.Machine.execCmpEq o s
  | .cmpNe o => Sys2Proof.Machine.execCmpNe o s
  | .cmpLt o => Sys2Proof.Machine.execCmpLt o s
  | .cmpLe o => Sys2Proof.Machine.execCmpLe o s
  | .cmpPhb o => Sys2Proof.Machine.execCmpPhb o s
  | .cmpPho o => Sys2Proof.Machine.execCmpPho o s
  | .gand o => Sys2Proof.Machine.execGand o s
  | .gor o => Sys2Proof.Machine.execGor o s
  | .gxor o => Sys2Proof.Machine.execGxor o s
  | .gandn o => Sys2Proof.Machine.execGandn o s
  | .gtos o => Sys2Proof.Machine.execGtos o s
  | .stog o => Sys2Proof.Machine.execStog o s
  | .phmul o => Sys2Proof.Machine.execPhmul o s
  | .phsub o => Sys2Proof.Machine.execPhsub o s
  | .br o => Sys2Proof.Machine.execBr o s
  | .jr o => Sys2Proof.Machine.execJr o s
  | .call o => Sys2Proof.Machine.execCall o s
  | .callr o => Sys2Proof.Machine.execCallr o s
  | .ret o => Sys2Proof.Machine.execRet o s
  | .retFrameLanding c => Sys2Proof.Machine.execRetFrameLanding c s
  | .loopBr o => Sys2Proof.Machine.execLoopBr o s
  | .mfsw o => Sys2Proof.Machine.execMfsw o s
  | .mtsw o => Sys2Proof.Machine.execMtsw o s
  | .movMp o => Sys2Proof.Machine.execMovMp o s
  | .mfmp o => Sys2Proof.Machine.execMfmp o s
  | .break o => Sys2Proof.Machine.execBreak o s
  | .syscall o => Sys2Proof.Machine.execSyscall o s
  | .uiret o => Sys2Proof.Machine.execUiret o s
  | .resume o => Sys2Proof.Machine.execResume o s
  | .cwtWr o => Sys2Proof.Machine.execCwtWr o s
  | .cwtRd o => Sys2Proof.Machine.execCwtRd o s
  | .mpsWr o => Sys2Proof.Machine.execMpsWr o s
  | .ctxSave o => Sys2Proof.Machine.execCtxSave o s
  | .ctxLoad o => Sys2Proof.Machine.execCtxLoad o s
  | .bankSave o => Sys2Proof.Machine.execBankSave o s
  | .bankLoad o => Sys2Proof.Machine.execBankLoad o s
  | .fmaskRd o => Sys2Proof.Machine.execFmaskRd o s
  | .fmaskWr o => Sys2Proof.Machine.execFmaskWr o s
  | .vadd o => Sys2Proof.Machine.execVadd o s
  | .vsub o => Sys2Proof.Machine.execVsub o s
  | .vmul o => Sys2Proof.Machine.execVmul o s
  | .vmulh o => Sys2Proof.Machine.execVmulh o s
  | .vmin o => Sys2Proof.Machine.execVmin o s
  | .vmax o => Sys2Proof.Machine.execVmax o s
  | .vmov o => Sys2Proof.Machine.execVmov o s
  | .vand o => Sys2Proof.Machine.execVand o s
  | .vor o => Sys2Proof.Machine.execVor o s
  | .vxor o => Sys2Proof.Machine.execVxor o s
  | .vandn o => Sys2Proof.Machine.execVandn o s
  | .vshl o => Sys2Proof.Machine.execVshl o s
  | .vshr o => Sys2Proof.Machine.execVshr o s
  | .vsel o => Sys2Proof.Machine.execVsel o s
  | .vfma o => Sys2Proof.Machine.execVfma o s
  | .vfms o => Sys2Proof.Machine.execVfms o s
  | .vclz o => Sys2Proof.Machine.execVclz o s
  | .vpopc o => Sys2Proof.Machine.execVpopc o s
  | .vcvt o => Sys2Proof.Machine.execVcvt o s
  | .vcmpEq o => Sys2Proof.Machine.execVcmpEq o s
  | .vcmpNe o => Sys2Proof.Machine.execVcmpNe o s
  | .vcmpLt o => Sys2Proof.Machine.execVcmpLt o s
  | .vcmpLe o => Sys2Proof.Machine.execVcmpLe o s
  | .vcmpUn o => Sys2Proof.Machine.execVcmpUn o s
  | .vcmpPhb o => Sys2Proof.Machine.execVcmpPhb o s
  | .vcmpPho o => Sys2Proof.Machine.execVcmpPho o s
  | .vperm o => Sys2Proof.Machine.execVperm o s
  | .vbcast o => Sys2Proof.Machine.execVbcast o s
  | .vext o => Sys2Proof.Machine.execVext o s
  | .vrow o => Sys2Proof.Machine.execVrow o s
  | .vwrow o => Sys2Proof.Machine.execVwrow o s
  | .vscacc o => Sys2Proof.Machine.execVscacc o s
  | .vredsum o => Sys2Proof.Machine.execVredsum o s
  | .vredmax o => Sys2Proof.Machine.execVredmax o s
  | .vredmin o => Sys2Proof.Machine.execVredmin o s
  | .vrcp o => Sys2Proof.Machine.execVrcp o s
  | .vrsqrt o => Sys2Proof.Machine.execVrsqrt o s
  | .vsqrt o => Sys2Proof.Machine.execVsqrt o s
  | .vexp2 o => Sys2Proof.Machine.execVexp2 o s
  | .vlog2 o => Sys2Proof.Machine.execVlog2 o s
  | .vsin o => Sys2Proof.Machine.execVsin o s
  | .vcos o => Sys2Proof.Machine.execVcos o s
  | .vphmul o => Sys2Proof.Machine.execVphmul o s
  | .vphsub o => Sys2Proof.Machine.execVphsub o s
  | .vphacc o => Sys2Proof.Machine.execVphacc o s
  | .vphres o => Sys2Proof.Machine.execVphres o s
  | .mxCall o => Sys2Proof.Machine.execMxCall o s
  | .muLat c u => Sys2Proof.Machine.execMuLat c u s
  | .muMmaE4m3 c u => Sys2Proof.Machine.execMuMmaE4m3 c u s
  | .muMmaBf16 c u => Sys2Proof.Machine.execMuMmaBf16 c u s
  | .muMmaBf16q c u => Sys2Proof.Machine.execMuMmaBf16q c u s
  | .muMmaI8 c u => Sys2Proof.Machine.execMuMmaI8 c u s
  | .muMmaPh c u => Sys2Proof.Machine.execMuMmaPh c u s
  | .muDrain c u => Sys2Proof.Machine.execMuDrain c u s
  | .muAdv c u => Sys2Proof.Machine.execMuAdv c u s
  | .muLoop c u => Sys2Proof.Machine.execMuLoop c u s
  | .muEnd c => Sys2Proof.Machine.execMuEnd c s
  | .blockComplete c => Sys2Proof.Machine.execBlockComplete c s
  | .matrixCallComplete c => Sys2Proof.Machine.execMatrixCallComplete c s
  | .matrixFault c => Sys2Proof.Machine.execMatrixFault c s
  | .operandRowArrival c => Sys2Proof.Machine.execOperandRowArrival c s
  | .ld o => Sys2Proof.Machine.execLd o s
  | .ldAcq o => Sys2Proof.Machine.execLdAcq o s
  | .ldTake o => Sys2Proof.Machine.execLdTake o s
  | .ldPf o => Sys2Proof.Machine.execLdPf o s
  | .loadPerform c => Sys2Proof.Machine.execLoadPerform c s
  | .st o => Sys2Proof.Machine.execSt o s
  | .stRel o => Sys2Proof.Machine.execStRel o s
  | .stFill o => Sys2Proof.Machine.execStFill o s
  | .storePerform c => Sys2Proof.Machine.execStorePerform c s
  | .atFadd o => Sys2Proof.Machine.execAtFadd o s
  | .redFadd o => Sys2Proof.Machine.execRedFadd o s
  | .atMinN o => Sys2Proof.Machine.execAtMinN o s
  | .atMaxN o => Sys2Proof.Machine.execAtMaxN o s
  | .redMinN o => Sys2Proof.Machine.execRedMinN o s
  | .redMaxN o => Sys2Proof.Machine.execRedMaxN o s
  | .atAdd o => Sys2Proof.Machine.execAtAdd o s
  | .redAdd o => Sys2Proof.Machine.execRedAdd o s
  | .atMinI o => Sys2Proof.Machine.execAtMinI o s
  | .atMaxI o => Sys2Proof.Machine.execAtMaxI o s
  | .redMinI o => Sys2Proof.Machine.execRedMinI o s
  | .redMaxI o => Sys2Proof.Machine.execRedMaxI o s
  | .atAnd o => Sys2Proof.Machine.execAtAnd o s
  | .atOr o => Sys2Proof.Machine.execAtOr o s
  | .atXor o => Sys2Proof.Machine.execAtXor o s
  | .redAnd o => Sys2Proof.Machine.execRedAnd o s
  | .redOr o => Sys2Proof.Machine.execRedOr o s
  | .redXor o => Sys2Proof.Machine.execRedXor o s
  | .atSwap o => Sys2Proof.Machine.execAtSwap o s
  | .atCas o => Sys2Proof.Machine.execAtCas o s
  | .atomicPerform c => Sys2Proof.Machine.execAtomicPerform c s
  | .windowContribution c => Sys2Proof.Machine.execWindowContribution c s
  | .windowRoundMerge loc => Sys2Proof.Machine.execWindowRoundMerge loc s
  | .cpCopy o => Sys2Proof.Machine.execCpCopy o s
  | .cpFill o => Sys2Proof.Machine.execCpFill o s
  | .cpClose o => Sys2Proof.Machine.execCpClose o s
  | .copyBegin c => Sys2Proof.Machine.execCopyBegin c s
  | .copyPieceWrite c => Sys2Proof.Machine.execCopyPieceWrite c s
  | .bxTr o => Sys2Proof.Machine.execBxTr o s
  | .bxIlv o => Sys2Proof.Machine.execBxIlv o s
  | .bxGth o => Sys2Proof.Machine.execBxGth o s
  | .bxSct o => Sys2Proof.Machine.execBxSct o s
  | .bxBc o => Sys2Proof.Machine.execBxBc o s
  | .shuffleBegin c n => Sys2Proof.Machine.execShuffleBegin c n s
  | .shuffleComplete c => Sys2Proof.Machine.execShuffleComplete c s
  | .barInitImm o => Sys2Proof.Machine.execBarInitImm o s
  | .barInitReg o => Sys2Proof.Machine.execBarInitReg o s
  | .barExpectImm o => Sys2Proof.Machine.execBarExpectImm o s
  | .barExpectReg o => Sys2Proof.Machine.execBarExpectReg o s
  | .barArrive o => Sys2Proof.Machine.execBarArrive o s
  | .barWait o => Sys2Proof.Machine.execBarWait o s
  | .barTest o => Sys2Proof.Machine.execBarTest o s
  | .barrierArrival car b => Sys2Proof.Machine.execBarrierArrival car b s
  | .barWaitRelease c => Sys2Proof.Machine.execBarWaitRelease c s
  | .syFence o => Sys2Proof.Machine.execSyFence o s
  | .syQjoin o => Sys2Proof.Machine.execSyQjoin o s
  | .syWaitb o => Sys2Proof.Machine.execSyWaitb o s
  | .syHoldEnd c => Sys2Proof.Machine.execSyHoldEnd c s
  | .syFrame o => Sys2Proof.Machine.execSyFrame o s
  | .syPhase o => Sys2Proof.Machine.execSyPhase o s
  | .sySuspend o => Sys2Proof.Machine.execSySuspend o s
  | .sySuspendEv o => Sys2Proof.Machine.execSySuspendEv o s
  | .sySuspendFe o => Sys2Proof.Machine.execSySuspendFe o s
  | .syYield o => Sys2Proof.Machine.execSyYield o s
  | .syYieldPark o => Sys2Proof.Machine.execSyYieldPark o s
  | .sySpawn o => Sys2Proof.Machine.execSySpawn o s
  | .syRetire o => Sys2Proof.Machine.execSyRetire o s
  | .syIreg o => Sys2Proof.Machine.execSyIreg o s
  | .syIend o => Sys2Proof.Machine.execSyIend o s
  | .syEvent o => Sys2Proof.Machine.execSyEvent o s
  | .layout o => Sys2Proof.Machine.execLayout o s
  | .mpsSwap o => Sys2Proof.Machine.execMpsSwap o s
  | .granuleStep d => Sys2Proof.Machine.execGranuleStep d s
  | .seifFaultDelivery c => Sys2Proof.Machine.execSeifFaultDelivery c s
  | .weightStoreRefresh b => Sys2Proof.Machine.execWeightStoreRefresh b s
  | .userInterruptDelivery c => Sys2Proof.Machine.execUserInterruptDelivery c s
  | .slbReplay c => Sys2Proof.Machine.execSlbReplay c s
  | .executionFaultStop c => Sys2Proof.Machine.execExecutionFaultStop c s
  | .supervisorCause c => Sys2Proof.Machine.execSupervisorCause c s
  | .sliceExpiry c => Sys2Proof.Machine.execSliceExpiry c s
  | .preempt c => Sys2Proof.Machine.execPreempt c s
  | .fabricTimeout c seq => Sys2Proof.Machine.execFabricTimeout c seq s
  | .launchRecordWrite f q r => Sys2Proof.Machine.execLaunchRecordWrite f q r s
  | .launchHalfWrite f q second d => Sys2Proof.Machine.execLaunchHalfWrite f q second d s
  | .ergLaunchMessage port q r => Sys2Proof.Machine.execErgLaunchMessage port q r s
  | .badLaunchWrite f q => Sys2Proof.Machine.execBadLaunchWrite f q s
  | .admission => Sys2Proof.Machine.execAdmission s
  | .recordExpansion car => Sys2Proof.Machine.execRecordExpansion car s
  | .recordSelection c => Sys2Proof.Machine.execRecordSelection c s
  | .parkedRecordSelect c => Sys2Proof.Machine.execParkedRecordSelect c s
  | .recordWake id => Sys2Proof.Machine.execRecordWake id s
  | .recordEscalation id => Sys2Proof.Machine.execRecordEscalation id s
  | .admissionEscalation q => Sys2Proof.Machine.execAdmissionEscalation q s
  | .caravanEnd car => Sys2Proof.Machine.execCaravanEnd car s
  | .bandwidthWindow ch => Sys2Proof.Machine.execBandwidthWindow ch s
  | .uncorrectableError u => Sys2Proof.Machine.execUncorrectableError u s
  | .correctableError u => Sys2Proof.Machine.execCorrectableError u s
  | .channelRetire k ch pages => Sys2Proof.Machine.execChannelRetire k ch pages s
  | .pageMove k page redirect => Sys2Proof.Machine.execPageMove k page redirect s
  | .clusterRetire cl repl => Sys2Proof.Machine.execClusterRetire cl repl s
  | .tenantScrubPage g page bad => Sys2Proof.Machine.execTenantScrubPage g page bad s
  | .ctxCreate f => Sys2Proof.Machine.execCtxCreate f s
  | .ctxDestroy f => Sys2Proof.Machine.execCtxDestroy f s
  | .keyGen f => Sys2Proof.Machine.execKeyGen f s
  | .keySet f => Sys2Proof.Machine.execKeySet f s
  | .keyErase f => Sys2Proof.Machine.execKeyErase f s
  | .hold f => Sys2Proof.Machine.execHold f s
  | .release f => Sys2Proof.Machine.execRelease f s
  | .checkpoint f => Sys2Proof.Machine.execCheckpoint f s
  | .restore f => Sys2Proof.Machine.execRestore f s
  | .checkpointComplete f => Sys2Proof.Machine.execCheckpointComplete f s
  | .supLoad f => Sys2Proof.Machine.execSupLoad f s
  | .ctxArea f => Sys2Proof.Machine.execCtxArea f s
  | .unknownCommand f v => Sys2Proof.Machine.execUnknownCommand f v s
  | .lockInterfaceRequest f => Sys2Proof.Machine.execLockInterfaceRequest f s
  | .startInterfaceRequest f => Sys2Proof.Machine.execStartInterfaceRequest f s
  | .stopInterfaceRequest f => Sys2Proof.Machine.execStopInterfaceRequest f s
  | .getDeviceInterfaceReport f => Sys2Proof.Machine.execGetDeviceInterfaceReport f s
  | .getDeviceInterfaceState f => Sys2Proof.Machine.execGetDeviceInterfaceState f s
  | .getTdispVersion f => Sys2Proof.Machine.execGetTdispVersion f s
  | .getTdispCapabilities f => Sys2Proof.Machine.execGetTdispCapabilities f s
  | .scrubReceiptRead f => Sys2Proof.Machine.execScrubReceiptRead f s
  | .configSpaceWrite f r v => Sys2Proof.Machine.execConfigSpaceWrite f r v s
  | .assignmentChange a => Sys2Proof.Machine.execAssignmentChange a s
  | .queueBindingWrite f q v => Sys2Proof.Machine.execQueueBindingWrite f q v s
  | .queueStatusWrite f q v => Sys2Proof.Machine.execQueueStatusWrite f q v s
  | .modelSlotWrite m v => Sys2Proof.Machine.execModelSlotWrite m v s
  | .errorReportWrite f v => Sys2Proof.Machine.execErrorReportWrite f v s
  | .hkeyWrite f v => Sys2Proof.Machine.execHkeyWrite f v s
  | .thermWrite f v => Sys2Proof.Machine.execThermWrite f v s
  | .monitorControlWrite f m v => Sys2Proof.Machine.execMonitorControlWrite f m v s
  | .stackStatusWrite f k v => Sys2Proof.Machine.execStackStatusWrite f k v s
  | .registerWrite f off v => Sys2Proof.Machine.execRegisterWrite f off v s
  | .hostMemoryRead f off n trusted => Sys2Proof.Machine.execHostMemoryRead f off n trusted s
  | .hostMemoryWrite f off d trusted => Sys2Proof.Machine.execHostMemoryWrite f off d trusted s
  | .deviceReset k => Sys2Proof.Machine.execDeviceReset k s
  | .functionLevelReset f => Sys2Proof.Machine.execFunctionLevelReset f s
  | .twarnReached t => Sys2Proof.Machine.execTwarnReached t s
  | .ttripReached t => Sys2Proof.Machine.execTtripReached t s
  | .tmaxFallsBelowTwarn t => Sys2Proof.Machine.execTmaxFallsBelowTwarn t s
  | .debugTraceRequest p => Sys2Proof.Machine.execDebugTraceRequest p s
  | .ergPeerAccess dev a => Sys2Proof.Machine.execErgPeerAccess dev a s
  | .onDemandScrub unit n => Sys2Proof.Machine.execOnDemandScrub unit n s
  | .attestationRequest f => Sys2Proof.Machine.execAttestationRequest f s
  | .spdmKeyMessage f session material => Sys2Proof.Machine.execSpdmKeyMessage f session material s
  | .ideStreamStateChange f secure => Sys2Proof.Machine.execIdeStreamStateChange f secure s

end Sys2Proof.Machine
end

