-- ==== Sys2Proof/Machine/Schedule.lean ====
section
/-! DEFINITION. What a step of the machine is made of (log 5): an event with the slot operations of the bundle it issues, a
turn of a core's clock, and the model's own choice of the next move where its environment has chosen none. Beside them the
placing of an instruction where the next step fetches it (log 10). -/

namespace Sys2Proof.Machine
open Sys2Proof

/-! ### An event and the operations it hands over -/

/-- The slot operations of a bundle, one after another in the order in which the bundle hands them over. -/
def drain : List Instr → State → Host.Outcome State Fault Refusal
  | [], s => .next s
  | i :: is, s =>
    match exec i s with
    | .next s => drain is s
    | .fault r => .fault r
    | .refused r => .refused r

/-- The turn is given back to a core. -/
def giveBack (c : CoreId) (o : Host.Outcome State Fault Refusal) : Host.Outcome State Fault Refusal :=
  match o with
  | .next s => .next { s with cur := c }
  | .fault r => .fault r
  | .refused r => .refused r

/-- A register of the S slot's operand A set to a value: the register that a recorded body names is physical (R356). -/
def Core.withOperand (k : Core) (x : SlotOp) (hnd : Bool) (v : W64) : Core :=
  match x with
  | .alu t o => match t.row.ak, o.a with
    | .s, .reg n => k.modR fun r => if hnd then { r with sh := r.sh.set (n.setWidth 4).toFin v } else { r with s := r.s.set n.toFin v }
    | _, _ => k
  | _ => k

/-- The operand A of an operation of the S slot as the core now holds it. -/
def Core.operand (k : Core) (x : SlotOp) (hnd : Bool) : W64 :=
  match x with
  | .alu _ o => match o.a with
    | .reg n => if hnd then k.r.sh[(n.setWidth 4).toFin] else k.r.s[n.toFin]
    | _ => 0
  | _ => 0

/-- The core in the cycle in which a recorded operation of the S slot executes again: the n-th after a resume in its n-th cycle, with
the operand that its record captured, physical names, and the handler or kernel it is of (R358). -/
def Core.forRedo (k : Core) (n : Nat) (r : Redo) (x : SlotOp) : Core :=
  { (k.withOperand x r.hnd r.val) with
    w := { k.w with rb := 0, uih := r.hnd }
    f := { k.f with ipc := r.ipc, seq := r.seq, cyc := k.f.cyc + n, at_ := .after } }

/-- The core after it: the resumed stream goes on as it stood, but for where a transfer takes it; results of a kernel that stands still
wait in the snapshot latch bank (R350, R358). -/
def Core.afterRedo (k : Core) (old : Core) (r : Redo) (x : SlotOp) : Core :=
  let moved := k.f.pc != old.f.pc
  let later := fun (p : Pend) => old.w.uih && !r.hnd && p.seq == r.seq
  { (k.withOperand x r.hnd (old.operand x r.hnd)) with
    w := { k.w with rb := old.w.rb, uih := old.w.uih }
    f := { k.f with
      ipc := old.f.ipc, seq := old.f.seq, cyc := old.f.cyc, at_ := old.f.at_, extra := old.f.extra
      pc := if moved && old.f.next.isNone then k.f.pc else old.f.pc
      nextNpc := if moved then k.f.pc else old.f.nextNpc }
    q := { k.q with
      pend := k.q.pend.filter fun p => !later p
      slb := k.q.slb ++ k.q.pend.filter later } }

/-- An operation of the S slot that a resume executes again (R358). One that an issue check stops is left with its fault (R359). -/
def redoOne (c : CoreId) (n : Nat) (r : Redo) (s : State) : Host.Outcome State Fault Refusal :=
  let k := s.core c
  match decodeSlot false 0 r.body (k.m.cwt.get (bodyCx r.body)) with
  | none => .next s
  | some x =>
    let t := { s.modCore c fun k => k.forRedo n r x with cur := c }
    match t.checks c [(x.slot, x)] with
    | some y => .next (s.modCore c fun k => k.modQ fun q => { q with
        shold := some ⟨.sup .resume r.val 0, r.seq, r.ipc, r.body, 0, r.val, (slotGd x).arr, r.hnd, some y⟩ })
    | none =>
      match exec x.toInstr t with
      | .next u => .next (if (u.core c).run = k.run ∧ !(u.core c).sup then u.modCore c fun y => y.afterRedo k r x else u)
      | .fault f => .fault f
      | .refused f => .refused f

/-- The operations of the S slot that a resume executes again, in list order, one in a cycle. -/
def redoAll (c : CoreId) : Nat → Nat → State → Host.Outcome State Fault Refusal
  | 0, _, s => .next s
  | fuel + 1, n, s =>
    match (s.core c).q.redo with
    | [] => .next s
    | r :: rs =>
      match redoOne c n r (s.modCore c fun k => k.modQ fun q => { q with redo := rs }) with
      | .next t => redoAll c fuel (n + 1) t
      | .fault f => .fault f
      | .refused f => .refused f

/-- What an event leaves to be executed: the operations of a bundle that it issued, or those of the S slot that a resume takes up
again. -/
def follow (i : Instr) (s : State) : Host.Outcome State Fault Refusal :=
  match i with
  | .syHoldEnd c => redoAll c (s.core c).q.redo.length 0 s
  | _ => drain s.issue { s with issue := [] }

/-- An event, and what it leaves to be executed. The turn stays where it was. -/
def perform (i : Instr) (s : State) : Host.Outcome State Fault Refusal :=
  match exec i s with
  | .next t => giveBack s.cur (follow i t)
  | .fault r => .fault r
  | .refused r => .refused r

/-! ### The turns of the cores -/

/-- The turn goes to the next core; after the last a cycle of the device has passed: the refresh register counts it, streams go on, and
arrivals are of a new cycle. -/
def State.advance (s : State) : State :=
  if s.cur.val = 319 then
    { s with cur := 0, d := { s.d with tick := s.d.tick + 1, refresh := s.d.refresh + 1, ranks := [] }.readStreams s.fresh }
  else { s with cur := s.cur + 1 }

/-- A core stands within a cycle: what the cycle still writes or makes comes before the turn goes on. -/
def inCycle (k : Core) : Bool := k.f.at_ == .after && !k.f.frozen && k.active

/-- The turn goes on from a core, unless its cycle is not yet over. -/
def passTurn (c : CoreId) (s : State) : State := if inCycle (s.core c) then s else s.advance

/-- The tick of a core's clock that the environment asks for, of the core whose turn it is: every core has one in each cycle of the
device. -/
def takeTurn (c : CoreId) (s : State) : Host.Outcome State Fault Refusal :=
  match (if c = s.cur then s.clock c else none) with
  | some t => .next (passTurn c { t with cur := c })
  | none => notEnabled "TURN"

/-! ### The model's own choice -/

/-- The step of the micro-word in progress. -/
def wordEvents (c : CoreId) (k : Core) : List Instr :=
  match k.mx.q with
  | m :: _ => ((decodeMicro (k.mx.mic.get m.upc)).map (Micro.toInstr c)).toList
  | [] => []

/-- The data that has not returned to a core. -/
def awaited (k : Core) : List Nat := ((k.q.ld ++ k.q.at_).filter fun e => e.ret == .none).map QEnt.seq

/-- The events of one core, in the order in which the model tries them: stops first, then what is outstanding, then the front
end. -/
def coreEvents (s : State) (c : CoreId) : List Instr :=
  let k := s.core c
  [.executionFaultStop c, .seifFaultDelivery c, .userInterruptDelivery c, .supervisorCause c, .sliceExpiry c, .preempt c,
    .loadPerform c, .storePerform c, .atomicPerform c, .windowContribution c]
  ++ (awaited k).map (Instr.loadDataReturn c)
  ++ [.copyBegin c, .copyPieceWrite c]
  ++ [.shuffleComplete c, .shuffleBegin c 4096, .operandRowArrival c] ++ wordEvents c k
  ++ [.blockComplete c, .matrixFault c, .matrixCallComplete c, .barWaitRelease c, .bundleIssue c, .heldBundleIssue c,
    .resultWriteback c, .retFrameLanding c, .landingDue c, .slbReplay c]
  ++ k.lateBanks.map (Instr.bankLanded c)
  ++ (match k.car with
      | some id => ((k.q.arr ++ k.q.earr).map fun a => Instr.barrierArrival id a.1.toFin)
      | none => [])
  ++ [.syHoldEnd c, .recordSelection c, .parkedRecordSelect c]

/-- The events of the device, tried once in a cycle. -/
def deviceEvents (s : State) : List Instr :=
  (List.finRange 64).map Instr.admissionEscalation ++ [.admission]
  ++ s.d.cars.map (fun x => Instr.recordExpansion x.id)
  ++ s.d.recs.map (fun r => Instr.recordWake r.id)
  ++ s.d.recs.map (fun r => Instr.recordEscalation r.id)
  ++ s.d.cars.map (fun x => Instr.caravanEnd x.id)
  ++ (List.finRange 4).map Instr.granuleStep
  ++ s.d.locs.map (fun w => Instr.windowRoundMerge w.loc)
  ++ (List.finRange 8).map Instr.checkpointComplete

/-- The first event of a list that the machine can take, taken. -/
def firstEnabled (s : State) : List Instr → Option State
  | [] => none
  | i :: is =>
    match perform i s with
    | .next t => some t
    | _ => firstEnabled s is

/-- The move that the model makes for the core whose turn it is, where the environment has chosen none: an event of the core,
for core 0 an event of the device, else a tick of its clock. -/
def eager (s : State) : State :=
  match firstEnabled s (coreEvents s s.cur ++ (if s.cur = 0 then deviceEvents s else [])) with
  | some t => t
  | none =>
    match s.clock s.cur with
    | some t => passTurn s.cur t
    | none => s.advance

/-- TMAX follows the hottest sensor between the limits (R434): crossing one is an event of its own. -/
def sensorMove (t : BitVec 8) (s : State) : Host.Outcome State Fault Refusal :=
  if t.toNat < 110 ∧ (t.toNat < 100 ∨ 100 ≤ s.d.tmax.toNat) ∧ (95 < t.toNat ∨ !s.d.admHold) then
    .next (s.modD fun d => { d with tmax := t })
  else notEnabled "SENSOR"

/-- The host changes its own memory, at physical addresses from Config.devBytes on (R423). -/
def hostStoreMove (a : Nat) (bs : List Byte) (s : State) : Host.Outcome State Fault Refusal :=
  if Config.devBytes ≤ a then .next (s.modD fun d => d.toHost (a, bs)) else notEnabled "HOST STORE"

/-- How the host completes reads of some bytes of its memory from now on: well, with the poisoned bit set, or with another error status
(R424). -/
def hostAnswersMove (a n : Nat) (poison error : Bool) (s : State) : Host.Outcome State Fault Refusal :=
  let put := fun (b : Bool) (m : NatSet) => (Dev.unitsOf 8 a n).foldl (fun m u => setPut m u b) m
  if Config.devBytes ≤ a then .next (s.modD fun d => { d with hostP := put poison d.hostP, hostE := put error d.hostE })
  else notEnabled "HOST ANSWERS"

/-- The move at the head of the agenda. A slot operation is no move: it belongs to its bundle. -/
def move (m : Move) (s : State) : Host.Outcome State Fault Refusal :=
  match m with
  | .act i => if i.toSlot.isNone then perform i s else notEnabled "SLOT OPERATION"
  | .turn c => takeTurn c s
  | .sensor t => sensorMove t s
  | .hostStore a bs => hostStoreMove a bs s
  | .hostAnswers a n poison error => hostAnswersMove a n poison error s
  | .copyRead c => copyReadAhead c s
  | .narrowWrite _ off size => narrowWrite off size s
  | .flrDone f => flrDone f s
  | .trained => if s.d.training then .next (s.modD fun d => { d with training := false }) else notEnabled "TRAINED"

/-- A device held in reset (R433) takes no step but a reset; the world around it goes on. -/
def inResetMove (s : State) : Host.Outcome State Fault Refusal :=
  match s.agenda with
  | .act (.deviceReset k) :: ms => exec (.deviceReset k) { s with agenda := ms }
  | .hostStore a bs :: ms => hostStoreMove a bs { s with agenda := ms }
  | .hostAnswers a n p e :: ms => hostAnswersMove a n p e { s with agenda := ms }
  | _ :: _ => notEnabled "RESET"
  | [] => .next s

/-- One step, once the counter of free values has moved on. -/
def nextMove (s : State) : Host.Outcome State Fault Refusal :=
  if s.d.inReset then inResetMove s
  else
    match s.agenda with
    | m :: ms => move m { s with agenda := ms }
    | [] => .next (eager s)

/-! ### Placing an instruction -/

/-- The context that a placed instruction runs in: context 0 of function 0, its tables from 2^30 on, its area above them. -/
def placedCtx : Ctx := ⟨0, 0, false, false, 1, 0x40000000, 0x40100000, 0⟩

/-- The caravan of a placed instruction. -/
def placedCar (c : CoreId) : Caravan where
  id := 0
  queue := 0
  slot := 0
  prio := 0
  ctx := 0
  rec_ := 0
  die := dieOf c
  clus := (clusOf c).val
  ent := 0
  det := false
  cwt := []
  ment := []
  mmic := []
  bars := Vector.replicate 16 .zero
  evs := 0
  evRel := []
  next := 1
  order := 0

/-- The record of a placed instruction: it runs. -/
def placedRec (c : CoreId) : CRec where
  id := 0
  pc := 0
  hclu := (clusOf c).val
  hpos := posOf c
  hv := true
  st := .running
  d := 0
  c := 0
  k := 0
  stage := 0
  pri := 0
  msl := 0
  ctx := 0
  car := 0
  wait := .none
  s := Vector.replicate 5 0
  acq := []
  walls := []
  kidle := none
  knext := none
  since := 0
  pin := false
  ran := true
  area := none

/-- The device with the text at virtual and physical address 0, under a table of two levels at 2^30: a table entry, then a
leaf of 1 GiB with X, U, KIND 3 and KEY 1 (R252, R253). -/
def placeText (d : Dev) (c : CoreId) (bs : List Byte) : Dev :=
  let key : KeyId := .random d.fns[0].nrand
  let d := { d with
    keys := tabSet d.keys 1 ⟨some 0, false, key⟩
    ctxs := placedCtx :: d.ctxs.filter fun x => x.id != 0
    fns := d.fns.set 0 { d.fns[0] with nrand := d.fns[0].nrand + 1 }
    clus := d.clus.set (clusOf c) ⟨some 0, false, false⟩
    grans := (d.grans.set 0 ⟨some 0, false⟩).set 1 ⟨some 0, false⟩
    cars := placedCar c :: d.cars.filter fun x => x.id != 0
    recs := placedRec c :: d.recs.filter fun r => r.id != 0
    moving := d.moving.filter fun p => p != 0 && p != 0x4000
    lost := d.lost.filter fun p => p != 0 && p != 0x4000 }
  let d := (d.scrubPage 0).scrubPage 0x4000
  let d := d.rawWrite 0 0x40000000 (bytesOf 8 (pack pteLayout [1, 0, 0, 0, 0, 0, 0, 0, 0, 0x40001, 0]))
  let d := d.rawWrite 0 0x40001000 (bytesOf 8 (pack pteLayout [1, 0, 0, 1, 1, 3, 0, 1, 0, 0, 1]))
  d.writeMem ⟨key, some 0⟩ 0 bs

/-- A core that runs the placed text: at the start of a cycle, at user level, its idle cycles passed, with the control word
that the body names. -/
def placeCore (k : Core) (cx : Nat) (cw : W256) : Core :=
  { k with
    w := { k.w with pl := 0, uih := false, ctxid := 0, ptb := placedCtx.ptb, carea := placedCtx.carea }
    f := { k.f with
      peb := 0, pc := 0, next := none, first := false, wait := 0, extra := 0, fixed := some 0, leave := none, held := false, at_ := .start
      frozen := false, bankFrozen := false, brk := none }
    q := { k.q with hold := none, shold := none, taking := [], redo := [] }
    own := some placedCtx.no
    m := { k.m with cwt := k.m.cwt.set cx cw }
    car := some 0
    run := some 0
    sup := false
    supSelf := false
    preempt := false
    expired := false
    seif := none
    lineCtx := some 0
    lineCar := some 0
    unbind := false }

/-- A state whose next step issues the stored bundle at the start of some bytes, with the control word behind it. -/
def place (s : State) (bs : List Byte) : State :=
  let n := storedSize (natOf (bs.take 4))
  let body := BitVec.ofNat 64 (natOf ((bs.drop 4).take 8))
  let cw := BitVec.ofNat 256 (natOf ((bs.drop n).take 32))
  { s with
    cores := s.cores.set 0 (placeCore s.cores[0] (bodyCx body) cw)
    d := { placeText s.d 0 (bs.take n) with inReset := false }
    cur := 0
    agenda := [.act (.bundleIssue 0)]
    issue := [] }

end Sys2Proof.Machine
end

