-- ==== Sys2Proof/Machine/Step.lean ====
section
/-! DEFINITION. One step of the machine. -/

namespace Sys2Proof.Machine
open Sys2Proof

/-- One step (log 5): the counter of free values moves on, then the head of the agenda, or where there is none the model's
own choice. -/
def step (s : State) : Host.Outcome State Fault Refusal := nextMove { s with fresh := s.fresh + 1 }

/-- The instruction whose bits are w, stored where the next step fetches it (log 10, log 11). -/
def State.withFetchWord (s : State) (_nbits w : Nat) : State := place s (bytesOf maxInstrBytes w)

end Sys2Proof.Machine
end

