-- ==== Sys2Proof/Safety.lean ====
section
/-! DEFINITION. What claims about the machine are stated in: one step that answers a next state, and the properties of a
state that every step should keep. -/

namespace Sys2Proof.Machine
open Sys2Proof

/-- The machine takes a step from one state to another. -/
def State.Steps (s t : State) : Prop := step s = .next t

/-- A property that every step keeps, from every state that has it. -/
def State.Kept (p : State → Prop) : Prop := ∀ s t, p s → s.Steps t → p t

/-- R336: the minima of the valid slots sum to at most 960, and no valid slot has DW 0. -/
def State.slotsInLimits (s : State) : Prop :=
  s.d.sumMin ≤ 960 ∧ ∀ m : Fin 16, s.d.slots[m].valid = true → s.d.slots[m].dw ≠ 0

/-- R17: g0 of every core reads all ones. -/
def State.g0Ones (s : State) : Prop := ∀ c : CoreId, (s.core c).r.g[0] = BitVec.allOnes 128

/-- What a stream of a checkpoint has read is canonical and lies below what it has still to read, in the granules of the device. -/
def Stream.canonical (t : Stream) : Prop :=
  Memory.wf t.got.mem = true ∧ (∀ g ∈ t.got.grans, g.1 < 477) ∧ t.left.Pairwise (fun a b => a.1 + a.2 ≤ b.1)
  ∧ ∀ r ∈ t.left, 0 < r.2 ∧ ∀ e ∈ t.got.mem, e.1 < 64 * r.1

/-- Every byte store of the machine is in its canonical form: no entry twice, none out of order, none equal to what an
unlisted address reads as. -/
def State.memoriesWf (s : State) : Prop :=
  Memory.wf s.d.mem = true ∧ (∀ i : Fin 4, Memory.wf s.d.ws[i] = true)
  ∧ (∀ c ∈ s.d.ckpts, Memory.wf c.mem = true) ∧ (∀ t ∈ s.d.streams, t.canonical)
  ∧ ∀ c : CoreId, Memory.wf (s.core c).m.spad = true ∧ Memory.wf (s.core c).m.spill = true ∧ Memory.wf (s.core c).m.sl = true

end Sys2Proof.Machine
end

