-- ==== Sys2Proof/Certificates/Slice0/Obligations.lean ====
section
/-! DEFINITION. The statements about the machine, each from a numbered rule of the spec or from the model's own choices as its
docstring says. What an operation needs in order to run is said by `Stated.Issues`: it passes the checks of its issue and
its guard does not squash it. -/

namespace Sys2Proof.Stated
open Sys2Proof Sys2Proof.Machine

/-- The operation passes every check of its issue (R92, R344) on the core whose turn it is, and is not squashed (R18). -/
def Issues (x : SlotOp) (s : State) : Prop := s.checks s.cur [(x.slot, x)] = none ∧ s.me.runs x = true

/-- A result that waits for the end of cycle t + L − 1 (R19): its unit, its operation, its destination, the bits and lanes
it writes, the latch group it shifts with a value, the flags it sets and the arrival it makes. -/
def result (k : Core) (x : SlotOp) (unit : Nat) (L : Nat) (dest : Dest) (val : W1024) (mask : W128) (shift : Option (Fin 4))
    (latch : W1024) (flags : BitVec 5) (arr : Option (BitVec 4)) : Pend where
  due := k.f.cyc + L - 1
  ord := unit
  seq := k.f.seq + unit
  ipc := k.f.ipc
  unit := unit
  body := k.body x
  dest := dest
  val := val
  mask := mask
  shift := shift
  latch := latch
  flags := flags
  poison := false
  arr := arr
  hnd := k.inHandler
  fault := none

/-- A result of the S slot with the 64-bit value v (R119): into sD unless N is 1, and into the scalar latches. -/
def scalarResult (k : Core) (t : AluTag) (o : AluOp) (L : Nat) (v : W64) (flags : BitVec 5) : Pend :=
  result k (.alu t o) 0 L (if o.nowb then .none else k.destS o.d (o.w == 1)) (v.setWidth 1024) (BitVec.allOnes 128)
    (if k.inHandler then none else some 0) (v.setWidth 1024) flags o.gd.arr

/-- A result of the S slot that writes bits of a guard under a mask (R119). -/
def guardResult (k : Core) (t : AluTag) (o : AluOp) (val mask : W128) (latch : W64) : Pend :=
  result k (.alu t o) 0 1 (if o.nowb then .none else .g (physGuard k.w.rb (o.d.setWidth 4)).toFin) (val.setWidth 1024) mask
    (if k.inHandler then none else some 0) (latch.setWidth 1024) 0 o.gd.arr

/-- A result of a VA or VB slot of which the lowest W bits are computed (R16, R18): into vD under the guard's lanes. -/
def vectorResult (k : Core) (t : AluTag) (o : AluOp) (L : Nat) (bits : Nat) (flags : BitVec 5) : Pend :=
  let u : Fin 4 := if o.unit = .vb then 2 else 1
  let b : W1024 := BitVec.ofNat 1024 (bits % 2 ^ vecBits o.w)
  result k (.alu t o) u.val L (if o.nowb then .none else .v (physReg k.w.rb o.d).toFin) b
    (lanes (vecBits o.w / 8) &&& k.guardVal o.gd) (some u) b flags o.gd.arr

/-- The exact integer operations of R121: the step, its mnemonic, its latency (R120) and its exact result. -/
def integerRows : List ((AluOp → Instr) × AluTag × Nat × (AluOp → Int → Int → Int → Int)) :=
  [(.add, .add, 1, fun _ a b _ => a + b), (.sub, .sub, 1, fun _ a b _ => a - b),
   (.mul, .mul, 3, fun _ a b _ => a * b), (.mulh, .mulh, 3, fun o a b _ => a * b / 2 ^ o.cw.fd.width),
   (.min, .min, 1, fun _ a b _ => Min.min a b), (.max, .max, 1, fun _ a b _ => Max.max a b),
   (.mov, .mov, 1, fun _ a _ _ => a),
   (.and, .and, 1, fun o a b _ => intOf o.cw.fd (wrapTo o.cw.fd.width a &&& wrapTo o.cw.fd.width b)),
   (.or, .or, 1, fun o a b _ => intOf o.cw.fd (wrapTo o.cw.fd.width a ||| wrapTo o.cw.fd.width b)),
   (.xor, .xor, 1, fun o a b _ => intOf o.cw.fd (wrapTo o.cw.fd.width a ^^^ wrapTo o.cw.fd.width b)),
   (.andn, .andn, 1, fun o a b _ =>
     intOf o.cw.fd (wrapTo o.cw.fd.width a &&& (2 ^ o.cw.fd.width - 1 - wrapTo o.cw.fd.width b))),
   (.shl, .shl, 1, fun _ a b _ => a * 2 ^ (b % 256).toNat), (.shr, .shr, 1, fun _ a b _ => a / 2 ^ (b % 256).toNat),
   (.rotl, .rotl, 1, fun o a b _ => rotlExact o.cw.fa a b),
   (.fma, .fma, 3, fun _ a b c => a * b + c), (.fms, .fms, 3, fun _ a b c => a * b - c),
   (.clz, .clz, 1, fun o a _ _ => leadingZeros o.cw.fa.width (wrapTo o.cw.fa.width a)),
   (.popc, .popc, 1, fun o a _ _ => popcount o.cw.fa.width (wrapTo o.cw.fa.width a))]

/-- The compares of R123 and R125: the step, its mnemonic and the truth it leaves. -/
def compareRows : List ((AluOp → Instr) × AluTag × (Core → AluOp → Bool)) :=
  [(.cmpEq, .cmpEq, fun k o => decide ((k.sInts o).1 = (k.sInts o).2.1)),
   (.cmpNe, .cmpNe, fun k o => decide ((k.sInts o).1 ≠ (k.sInts o).2.1)),
   (.cmpLt, .cmpLt, fun k o => decide ((k.sInts o).1 < (k.sInts o).2.1)),
   (.cmpLe, .cmpLe, fun k o => decide ((k.sInts o).1 ≤ (k.sInts o).2.1)),
   (.cmpPhb, .cmpPhb, fun k o =>
     phaseOrder o.cw.fa o.cw.fb (k.patSrc o o.cw.fa o.a) (k.patSrc o o.cw.fb o.b) == .before),
   (.cmpPho, .cmpPho, fun k o =>
     phaseOrder o.cw.fa o.cw.fb (k.patSrc o o.cw.fa o.a) (k.patSrc o o.cw.fb o.b) == .opposite)]

/-- The guard operations of R124 over all 128 bits. -/
def guardRows : List ((AluOp → Instr) × AluTag × (W128 → W128 → W128)) :=
  [(.gand, .gand, fun a b => a &&& b), (.gor, .gor, fun a b => a ||| b), (.gxor, .gxor, fun a b => a ^^^ b),
   (.gandn, .gandn, fun a b => a &&& ~~~b)]

end Sys2Proof.Stated

open Sys2Proof Sys2Proof.Machine Sys2Proof.Stated

/-! ### Issue (03, 05, 17) -/

/-- R92, R344: an operation that fails a check of its issue is not performed: the core takes the trap of the first check
that fails. -/
def Sys2Proof.Stated.FailedChecksTrap : Prop :=
  ∀ (i : Instr) (x : SlotOp) (s : State) (t : Trap), i.toSlot = some x → s.checks s.cur [(x.slot, x)] = some t →
    exec i s = .next (s.trap s.cur t false s.me.f.npc (some s.me.f.ib) 0)

/-- R18, R66: an operation whose guard squashes it has no effect but its arrival, which it makes when it would have
retired: at the end of its cycle t + L − 1, or of its LAND. -/
def Sys2Proof.Stated.SquashedOperationsOnlyArrive : Prop :=
  ∀ (i : Instr) (x : SlotOp) (s : State), i.toSlot = some x → s.checks s.cur [(x.slot, x)] = none → s.me.runs x = false →
    ((slotGd x).arr = none → exec i s = .next s) ∧
    (∀ b, (slotGd x).arr = some b → ∃ p : Pend, exec i s = .next (s.modMe fun k => k.push p) ∧
      p.due = s.me.f.cyc + squashedDelay x ∧ p.dest = .none ∧ p.shift = none ∧ p.flags = 0 ∧ p.arr = some b)

/-! ### The scalar unit (05) -/

/-- R118, R120, R121: an integer operation of the S slot leaves the exact result of its entry on a, b and c, brought into FD
under SAT, for the end of cycle t + L − 1; nothing else changes. sel takes a where bit 0 of gC is 1, else b. -/
def Sys2Proof.Stated.ScalarIntegerResults : Prop :=
  (∀ r ∈ integerRows, ∀ (o : AluOp) (s : State), Issues (.alu r.2.1 o) s →
    exec (r.1 o) s = .next (s.modMe fun k =>
      let v := finishS o (r.2.2.2 o (k.sInts o).1 (k.sInts o).2.1 (k.sInts o).2.2)
      k.push (scalarResult k r.2.1 o r.2.2.1 v.val v.flags))) ∧
  (∀ (o : AluOp) (s : State), Issues (.alu .sel o) s →
    exec (.sel o) s = .next (s.modMe fun k =>
      let v := finishS o (if (k.srcG o.c).getLsbD 0 then (k.sInts o).1 else (k.sInts o).2.1)
      k.push (scalarResult k .sel o 1 v.val v.flags)))

/-- R72, R95, R118, R119: the exact result, bounded by K0' and K1' under POST clamp, wraps into FD under SAT 00 and is
bounded to the range of FD otherwise; the SAT flag is set exactly under SAT 10 where the bound was applied. The result is
extended to 64 bits by its format. -/
def Sys2Proof.Stated.IntegerResultsWrapOrSaturate : Prop :=
  ∀ (o : AluOp) (r : Int), o.cw.fd.isInt = true →
    let v := if o.cw.post = .clamp then clampInt o r else r
    let w := o.cw.fd.width
    let lo : Int := if o.cw.fd.isI then -(2 ^ (w - 1)) else 0
    let hi : Int := if o.cw.fd.isI then 2 ^ (w - 1) - 1 else 2 ^ w - 1
    (o.cw.sat = .none →
      (finishS o r).val = BitVec.ofInt 64 (if o.cw.fd.isI then Int.bmod v (2 ^ w) else v % 2 ^ w) ∧ (finishS o r).flags = 0) ∧
    (o.cw.sat ≠ .none →
      (finishS o r).val = BitVec.ofInt 64 (max lo (min v hi)) ∧
      (finishS o r).flags = if o.cw.sat = .satf ∧ (v < lo ∨ hi < v) then flagSat else 0)

/-- R122: div truncates toward zero and rem leaves what is over; a division by zero gives all ones, or a modulo 2^wD, and
sets DIV0. The latency is 34 cycles for a 64-bit FD and 18 otherwise (R120). -/
def Sys2Proof.Stated.DivisionResults : Prop :=
  ∀ (o : AluOp) (s : State),
    let a := (s.me.sInts o).1
    let b := (s.me.sInts o).2.1
    let L := if o.cw.fd.width = 64 then 34 else 18
    (Issues (.alu .div o) s → exec (.div o) s = .next (s.modMe fun k => k.push
      (if b = 0 then scalarResult k .div o L (extend64 o.cw.fd (2 ^ o.cw.fd.width - 1)) flagDiv0
       else scalarResult k .div o L (finishS o (a.tdiv b)).val (finishS o (a.tdiv b)).flags))) ∧
    (Issues (.alu .rem o) s → exec (.rem o) s = .next (s.modMe fun k => k.push
      (if b = 0 then scalarResult k .rem o L (extend64 o.cw.fd (wrapTo o.cw.fd.width a)) flagDiv0
       else scalarResult k .rem o L (finishS o (a - a.tdiv b * b)).val (finishS o (a - a.tdiv b * b)).flags)))

/-- R123, R125: a compare of the S slot writes every bit of its guard with the truth it finds, and 1 or 0 to the latch. -/
def Sys2Proof.Stated.ScalarComparesWriteGuards : Prop :=
  ∀ r ∈ compareRows, ∀ (o : AluOp) (s : State), Issues (.alu r.2.1 o) s →
    exec (r.1 o) s = .next (s.modMe fun k => k.push
      (guardResult k r.2.1 o (if r.2.2 k o then BitVec.allOnes 128 else 0) (BitVec.allOnes 128) (if r.2.2 k o then 1 else 0)))

/-- R124: the guard operations work on all 128 bits; gtos reads one half of a guard, stog writes one half and leaves the
other. -/
def Sys2Proof.Stated.GuardOperations : Prop :=
  (∀ r ∈ guardRows, ∀ (o : AluOp) (s : State), Issues (.alu r.2.1 o) s →
    exec (r.1 o) s = .next (s.modMe fun k => k.push
      (guardResult k r.2.1 o (r.2.2 (k.srcG o.a) (k.srcG o.b)) (BitVec.allOnes 128)
        ((r.2.2 (k.srcG o.a) (k.srcG o.b)).setWidth 64)))) ∧
  (∀ (o : AluOp) (s : State), Issues (.alu .gtos o) s →
    exec (.gtos o) s = .next (s.modMe fun k => k.push
      (scalarResult k .gtos o 1 ((k.srcG o.a).extractLsb' (64 * o.imm.toNat) 64) 0))) ∧
  (∀ (o : AluOp) (s : State), Issues (.alu .stog o) s →
    exec (.stog o) s = .next (s.modMe fun k =>
      let a := k.scalarSrc o .none o.a
      k.push (guardResult k .stog o (a.setWidth 128 <<< (64 * o.imm.toNat))
        (BitVec.ofNat 128 (2 ^ 64 - 1) <<< (64 * o.imm.toNat)) a)))

/-- R112, R121, R125: the phasor operations of the S slot: the angle sum and difference in FD, and a conversion between
phasor formats; a conversion between integer formats brings a into FD under SAT. -/
def Sys2Proof.Stated.ScalarPhasorsAndConversions : Prop :=
  ∀ (o : AluOp) (s : State),
    (Issues (.alu .phmul o) s → exec (.phmul o) s = .next (s.modMe fun k => k.push (scalarResult k .phmul o 1
      (extend64 o.cw.fd (phComb false o.cw.fa o.cw.fb o.cw.fd (k.patSrc o o.cw.fa o.a) (k.patSrc o o.cw.fb o.b))) 0))) ∧
    (Issues (.alu .phsub o) s → exec (.phsub o) s = .next (s.modMe fun k => k.push (scalarResult k .phsub o 1
      (extend64 o.cw.fd (phComb true o.cw.fa o.cw.fb o.cw.fd (k.patSrc o o.cw.fa o.a) (k.patSrc o o.cw.fb o.b))) 0))) ∧
    (Issues (.alu .cvt o) s → exec (.cvt o) s = .next (s.modMe fun k => k.push
      (if o.cw.fa.isPh then scalarResult k .cvt o 1
          (extend64 o.cw.fd (phTo o.cw.fd (phOf o.cw.fa (k.patSrc o o.cw.fa o.a)).1 (phOf o.cw.fa (k.patSrc o o.cw.fa o.a)).2)) 0
       else scalarResult k .cvt o 1 (finishS o (k.sInts o).1).val (finishS o (k.sInts o).1).flags)))

/-- R17, R21: g0 reads all ones whatever its register holds, and a write to it is discarded; guards g8 to g15 and registers
s48 to s63 and v48 to v63 rotate with RB, the others are themselves. -/
def Sys2Proof.Stated.RegisterNames : Prop :=
  (∀ k : Core, k.readG 0 = BitVec.allOnes 128) ∧
  (∀ (k : Core) (m v : W128) (p : Bool), k.writeG 0 m v p = k) ∧
  (∀ (rb : BitVec 4) (n : BitVec 6),
    (physReg rb n).toNat = if n.toNat < 48 then n.toNat else 48 + (n.toNat - 48 + rb.toNat) % 16) ∧
  (∀ (rb n : BitVec 4),
    (physGuard rb n).toNat = if n.toNat < 8 then n.toNat else 8 + (n.toNat - 8 + rb.toNat) % 8)


namespace Sys2Proof.Stated

/-- The operations of an expanded bundle on a core, in slot order (R55). -/
def opsOf (s : State) (c : CoreId) (e : W512) : List SlotOp := (s.slotsOf c e).filterMap Prod.snd

/-- What a bundle needs to issue in this cycle, its idle cycles aside: the core stands at a boundary that no stop and no user
interrupt takes (R345, R136), nothing holds issue (R39, R231, R276), no move locks its text (R410), the bundle is fetched and
expanded to e with npc after it (R58), it passes its checks (R92), nothing of it is overdue in a deterministic kernel (R298), and its queues have room (R201). -/
def MayIssue (c : CoreId) (s : State) (e : W512) (npc : W64) : Prop :=
  (s.core c).atBoundary = true ∧ s.d.inReset = false ∧ (s.core c).stopPending = false ∧ (s.core c).uiPending = false ∧
  (s.core c).holding = false ∧ s.issue = [] ∧ s.fetchLate c = false ∧ s.nextBundle c = .ok (some (e, npc)) ∧
  (s.detNow c = true → ∀ x ∈ opsOf s c e, State.dueNow (s.core c) x = none) ∧ s.seqHeld c = false ∧ s.bundleChecks c e = none ∧
  State.queueFull (s.core c) (opsOf s c e) = false ∧ State.uiHeld (s.core c) (opsOf s c e) = false

/-- What the issue of a bundle leaves: its operations handed over in their order, the front end past it, PEB its expansion, what
the read of its text does (R338, R415), and everything else of the machine as it was. -/
def IssuesAs (c : CoreId) (e : W512) (npc : W64) (s t : State) : Prop :=
  t.issue = (State.stepOrder (opsOf s c e)).map SlotOp.toInstr ∧ t.cur = c ∧ t.d = (s.noteFetch c).d ∧ t.agenda = s.agenda ∧
  (t.core c).f.pc = npc ∧ (t.core c).f.npc = npc ∧ (t.core c).f.ipc = (s.core c).f.pc ∧ (t.core c).f.ib = e ∧
  (t.core c).f.at_ = .after ∧ (t.core c).f.seq = (s.core c).f.seq + 8 ∧
  (t.core c).f.peb = (if (s.core c).inHandler then (s.core c).f.peb else e) ∧
  (t.core c).f.hpeb = (if (s.core c).inHandler then e else (s.core c).f.hpeb) ∧
  (t.core c).r = (s.core c).r ∧ (t.core c).w = (s.core c).w ∧ (t.core c).q = (s.core c).q ∧ (t.core c).mx = (s.core c).mx ∧
  (t.core c).m = (s.core c).m ∧ ∀ a, a ≠ c → t.core a = s.core a

/-- A result that is due: the next one of its cycle in the order of R20, on a core that is at the end of the cycle. -/
def WritesNext (c : CoreId) (s : State) (p : Pend) : Prop :=
  (s.core c).nextWrite = some p ∧ (s.core c).f.at_ = .after ∧ (s.core c).f.frozen = false ∧
  (p.ord < 3 ∨ (s.core c).dueLandings = [])

end Sys2Proof.Stated

/-- R60: a step whose environment lets a core issue, where the bundle at its program counter is fetched and expands to
operations that may issue, hands them over and performs them one after another on the state after the issue. -/
def Sys2Proof.Stated.StepRunsTheBundleAtThePc : Prop :=
  ∀ (c : CoreId) (s : State) (ms : List Move) (e : W512) (npc : W64),
    s.d.inReset = false → s.agenda = .act (.bundleIssue c) :: ms →
    let u := { s with agenda := ms, fresh := s.fresh + 1 }
    MayIssue c u e npc → (u.core c).f.held = false → u.idleOwed c = 0 →
    ∃ t, IssuesAs c e npc u t ∧
      step s = giveBack s.cur (drain ((State.stepOrder (opsOf u c e)).map SlotOp.toInstr) { t with issue := [] })

/-- R60: where the bundle at the program counter decodes to the one operation x, the step is exec of x on the state after the
issue, with the turn given back. -/
def Sys2Proof.Stated.StepIsExecOfTheDecodedOperation : Prop :=
  ∀ (c : CoreId) (s : State) (ms : List Move) (e : W512) (npc : W64) (x : SlotOp),
    s.d.inReset = false → s.agenda = .act (.bundleIssue c) :: ms →
    let u := { s with agenda := ms, fresh := s.fresh + 1 }
    MayIssue c u e npc → (u.core c).f.held = false → u.idleOwed c = 0 → opsOf u c e = [x] →
    ∃ t, IssuesAs c e npc u t ∧ step s = giveBack s.cur (exec x.toInstr { t with issue := [] })

/-- R39, R60: a bundle whose idle cycles have passed issues, and so does a bundle whose hold has ended (after the monitor's
sample of the hold, R293). -/
def Sys2Proof.Stated.BundlesIssue : Prop :=
  (∀ (c : CoreId) (s : State) (e : W512) (npc : W64),
    MayIssue c s e npc → (s.core c).f.held = false → s.idleOwed c = 0 →
    ∃ t, exec (.bundleIssue c) s = .next t ∧ IssuesAs c e npc s t) ∧
  (∀ (c : CoreId) (s : State) (e : W512) (npc : W64),
    MayIssue c s e npc → MayIssue c (s.sampleHold c) e npc → (s.core c).f.held = true →
    ∃ t, exec (.heldBundleIssue c) s = .next t ∧ IssuesAs c e npc (s.sampleHold c) t)

/-- R58, R61, R92, R342: a bundle that is not fetched, does not expand or fails a check is not performed: the core takes the trap,
with the bundle unissued; the slot of a repeat that names an absent body is in the cause. What was read of its text and of the handles that
it looks at is read (R307, R415). -/
def Sys2Proof.Stated.BundlesTrap : Prop :=
  ∀ (c : CoreId) (s : State),
    (s.core c).atBoundary = true → s.d.inReset = false → (s.core c).stopPending = false → (s.core c).uiPending = false →
    (s.core c).holding = false → s.issue = [] → (s.core c).f.held = false → s.idleOwed c = 0 → s.fetchLate c = false →
    (∀ t, s.nextBundle c = .error t → exec (.bundleIssue c) s =
      .next ((s.noteFetch c).trap c t false (s.core c).f.pc none 0)) ∧
    (∀ bs, s.nextBundle c = .ok none → s.fetch c (s.core c).f.pc = .ok bs → exec (.bundleIssue c) s =
      .next ((s.noteFetch c).trap c ⟨.encoding, expandFail (s.core c).pebNow bs, 0⟩ false (s.core c).f.pc none 0)) ∧
    (∀ e npc t, s.nextBundle c = .ok (some (e, npc)) → s.detNow c = false → s.seqHeld c = false →
      s.bundleChecks c e = some t →
      exec (.bundleIssue c) s = .next (((s.noteFetch c).noteOps c (opsOf s c e)).trap c t false npc (some e) 0))

/-! ### Results and landings (01) -/

/-- R19, R350: a result is written at the end of its cycle, from the pipelines or from the snapshot latch bank. -/
def Sys2Proof.Stated.ResultsAreWritten : Prop :=
  ∀ (c : CoreId) (s : State) (p : Pend), WritesNext c s p →
    (p ∈ (s.core c).q.pend → exec (.resultWriteback c) s = .next (s.writeBack c p)) ∧
    (p ∉ (s.core c).q.pend → exec (.slbReplay c) s = .next (s.writeBack c p))

/-- R15, R16, R17, R18, R126, R137, R161: the write of a result reaches its destination alone: a scalar in 64 or its low 32 bits, the masked
bytes of a vector register or of a bank row, the masked bits of a guard other than g0, the defined bits of a status word. -/
def Sys2Proof.Stated.WriteBackDestinations : Prop :=
  ∀ (c : CoreId) (s : State) (p : Pend),
    let a := (s.core c).r
    let b := ((s.writeBack c p).core c).r
    (∀ r w32, p.dest = .s r w32 →
      b.s = a.s.set r (if w32 then (p.val.setWidth 64 &&& 0xFFFFFFFF) ||| (a.s[r] &&& 0xFFFFFFFF00000000) else p.val.setWidth 64) ∧
      b.v = a.v ∧ b.g = a.g ∧ b.mp = a.mp ∧ b.sh = a.sh ∧ (s.writeBack c p).d = s.d) ∧
    (∀ r, p.dest = .v r →
      (∀ i : Fin 128, b.v[r].extractLsb' (8 * i.val) 8 =
        if p.mask.getLsbD i.val then p.val.extractLsb' (8 * i.val) 8 else a.v[r].extractLsb' (8 * i.val) 8) ∧
      (∀ q : Fin 64, q ≠ r → b.v[q] = a.v[q]) ∧ b.s = a.s ∧ b.g = a.g ∧ b.mp = a.mp ∧ b.sh = a.sh ∧ (s.writeBack c p).d = s.d) ∧
    (∀ r, p.dest = .g r → r ≠ 0 →
      (∀ i : Fin 128, b.g[r].getLsbD i.val =
        if p.mask.getLsbD i.val then (p.val.setWidth 128).getLsbD i.val else a.g[r].getLsbD i.val) ∧
      (∀ q : Fin 16, q ≠ r → b.g[q] = a.g[q]) ∧ b.s = a.s ∧ b.v = a.v ∧ b.mp = a.mp ∧ b.sh = a.sh ∧ (s.writeBack c p).d = s.d) ∧
    (∀ r, p.dest = .mp r → b.mp = a.mp.set r (p.val.setWidth 64) ∧ b.s = a.s ∧ b.v = a.v ∧ b.g = a.g ∧ b.sh = a.sh ∧
      (s.writeBack c p).d = s.d) ∧
    (∀ r w32, p.dest = .sh r w32 →
      b.sh = a.sh.set r (if w32 then (p.val.setWidth 64 &&& 0xFFFFFFFF) ||| (a.sh[r] &&& 0xFFFFFFFF00000000) else p.val.setWidth 64) ∧
      b.s = a.s ∧ b.v = a.v ∧ b.g = a.g ∧ b.mp = a.mp ∧ (s.writeBack c p).d = s.d) ∧
    (∀ n, p.dest = .sw n →
      let w := ((s.core c).writeSw n (p.val.setWidth 64)).w
      ((s.writeBack c p).core c).w = { w with flags := w.flags ||| p.flags } ∧
      b.s = a.s ∧ b.v = a.v ∧ b.g = a.g ∧ b.mp = a.mp ∧ b.sh = a.sh ∧
      (n ≠ 0x00C → ((s.writeBack c p).core c).m = (s.core c).m) ∧ (n ≠ 0x014 → (s.writeBack c p).d = s.d)) ∧
    (∀ (n : Fin 16) (row : Fin 32), p.dest = .bank n row →
      let m := (s.core c).m
      let t := ((s.writeBack c p).core c).m
      (∀ i : Fin 128, (t.bank.get (32 * n.val + row.val)).extractLsb' (8 * i.val) 8 =
        if p.mask.getLsbD i.val then p.val.extractLsb' (8 * i.val) 8
        else (m.bank.get (32 * n.val + row.val)).extractLsb' (8 * i.val) 8) ∧
      (∀ i, i ≠ 32 * n.val + row.val → t.bank.get i = m.bank.get i) ∧ t.sl = m.sl ∧ t.spad = m.spad ∧
      b.s = a.s ∧ b.v = a.v ∧ b.g = a.g ∧ b.mp = a.mp ∧ b.sh = a.sh ∧ (s.writeBack c p).d = s.d)

/-- R24, R66, R145: as a result is written it shifts its group of four latches by one, sets its sticky flags, makes its
arrival at the end of the cycle and leaves the pipelines; another core is unchanged. -/
def Obligations.WriteBackShiftsLatchesAndSetsFlags : Prop :=
  ∀ (c : CoreId) (s : State) (p : Pend), p.dest ≠ .sw 0 → (∀ b i, p.dest ≠ .bar b i) → (∀ f, p.dest ≠ .fmask f) →
    let k := s.core c
    let j := (s.writeBack c p).core c
    (∀ g : Fin 4, p.shift = some g → ∀ n : Fin 16,
      (j.r.x[n] = if n.val / 4 = g.val then (if n.val % 4 = 0 then p.latch else k.r.x[n.val - 1]) else k.r.x[n]) ∧
      (j.r.xv.getLsbD n.val =
        if n.val / 4 = g.val then (n.val % 4 = 0 || k.r.xv.getLsbD (n.val - 1)) else k.r.xv.getLsbD n.val)) ∧
    (p.shift = none → j.r.x = k.r.x ∧ j.r.xv = k.r.xv) ∧
    j.w.flags = k.w.flags ||| p.flags ∧
    j.q.arr = k.q.arr ++ (p.arr.map fun b => (b, p.seq)).toList ∧
    j.q.pend = k.q.pend.erase p ∧
    ∀ a, a ≠ c → (s.writeBack c p).core a = s.core a

/-- R27, R28: data of a performed request that arrives is written in its own cycle if it is due in it, else it goes to the oasis,
or stays at the memory port where the 64 entries of the oasis are taken. -/
def Sys2Proof.Stated.ReturnedDataGoesToTheOasis : Prop :=
  ∀ (c : CoreId) (seq : Nat) (s : State) (e : QEnt),
    let k := s.core c
    (k.q.ld ++ k.q.at_).find? (fun e => e.seq == seq && e.land.isSome && e.done && e.ret == .none
      && decide (e.until_ ≤ s.d.tick)) = some e →
    let used := ((k.q.ld ++ k.q.at_).filter fun e => e.ret == .oasis).length
    let r : Ret := if e.land = some k.f.cyc ∧ k.live e.hnd = true then .onTime else if used < 64 then .oasis else .port
    ∃ t, exec (.loadDataReturn c seq) s = .next t ∧
      (t.core c).q.ld = (k.q.ld.map fun x => if x.seq = seq then { x with ret := r, rseq := k.f.rseq } else x) ∧
      (t.core c).q.at_ = (k.q.at_.map fun x => if x.seq = seq then { x with ret := r, rseq := k.f.rseq } else x) ∧
      (t.core c).r = k.r ∧ (t.core c).w = k.w ∧ (t.core c).m = k.m ∧ t.d.mem = s.d.mem

/-- R28: a landing that falls due before its data has arrived freezes the clock domain of the core; nothing else changes. A landing
that R291 says is never late freezes nothing. R32: so does a bank whose countdown reaches zero before its contents are complete. In a deterministic kernel at the start of a cycle
both are SCHED_OVERRUN (R298). -/
def Sys2Proof.Stated.LateDataFreezesTheCore : Prop :=
  ∀ (c : CoreId) (s : State), (s.core c).active = true →
    ((s.core c).dueLandings.any (s.bounded c) = true → (s.core c).lateLanding = true →
      exec (.landingDue c) s = notEnabled "LANDING_DUE") ∧
    ((s.core c).dueLandings ≠ [] → (s.core c).f.frozen = false → (s.core c).lateLanding = true →
      (s.core c).dueLandings.any (s.bounded c) = false →
      (s.detNow c = false → exec (.landingDue c) s = .next (s.modCore c fun k => k.modF fun f =>
        { f with frozen := true, bankFrozen := f.bankFrozen || !(s.core c).lateBanks.isEmpty })) ∧
      (s.detNow c = true → (s.core c).f.at_ = .start →
        exec (.landingDue c) s = .next (s.overrun c 1 0 (s.core c).f.pc none))) ∧
    (∀ b : Fin 16, (s.core c).mx.bankDue[b] = (s.core c).f.cyc → (s.core c).f.bankFrozen = false →
      (b ∉ (s.core c).lateBanks → exec (.bankLanded c b) s = .next s) ∧
      (b ∈ (s.core c).lateBanks → s.detNow c = false →
        exec (.bankLanded c b) s = .next (s.modCore c fun k => k.modF fun f => { f with frozen := true, bankFrozen := true })) ∧
      (b ∈ (s.core c).lateBanks → s.detNow c = true → (s.core c).f.at_ = .start →
        exec (.bankLanded c b) s = .next (s.overrun c 2 0 (s.core c).f.pc none)))

/-- R20, R27, R203: a load whose data is there lands in its cycle: its register takes the data, its latch group x12 to x15
and their valid bits shift by one, its entry leaves its queue, where an entry that waits at the port may take its place in the oasis, and
memory is as it was. Of a spill load and a landing of one cycle to one register, the later issued
is the one that stands (R20). -/
def Sys2Proof.Stated.LandingsWriteTheirRegister : Prop :=
  ∀ (c : CoreId) (s : State) (e : QEnt), (s.core c).active = true → (s.core c).f.at_ = .after → (s.core c).f.frozen = false →
    (s.core c).dueLandings = [e] → State.isPop e = false → e.ret ≠ .none → State.writesFirst (s.core c) = false →
    let spill := (s.core c).q.pend.filter fun p => p.ord == 3 && decide (p.due ≤ (s.core c).f.cyc)
    (∀ (p : Pend) (r : Fin 64), spill = [p] → p.dest = .s r false → e.dest = .s r false → p.seq ≠ e.seq →
      ∃ t, exec (.landingDue c) s = .next t ∧ (t.core c).r.s = (s.core c).r.s.set r
        (if p.seq < e.seq then e.data.setWidth 64 else p.val.setWidth 64)) ∧
    (spill = [] → ∃ t, exec (.landingDue c) s = .next t ∧ t.d = s.d ∧ (∀ a, a ≠ c → t.core a = s.core a) ∧
      (∀ r, e.dest = .s r false →
        (t.core c).r.s = (s.core c).r.s.set r (e.data.setWidth 64) ∧ (t.core c).r.v = (s.core c).r.v ∧
        (t.core c).r.g = (s.core c).r.g ∧ (t.core c).r.mp = (s.core c).r.mp) ∧
      (∀ r, e.dest = .v r →
        (t.core c).r.v = (s.core c).r.v.set r (mergeBytes (lanes e.size) e.data (s.core c).r.v[r]) ∧
        (t.core c).r.s = (s.core c).r.s ∧ (t.core c).r.g = (s.core c).r.g) ∧
      (∀ n : Fin 16,
        (t.core c).r.x[n] = (if e.shift = true ∧ e.hnd = false ∧ 12 ≤ n.val then (if n.val = 12 then e.data else (s.core c).r.x[n.val - 1])
          else (s.core c).r.x[n]) ∧
        (t.core c).r.xv.getLsbD n.val = (if e.shift = true ∧ e.hnd = false ∧ 12 ≤ n.val then (n.val = 12 || (s.core c).r.xv.getLsbD (n.val - 1))
          else (s.core c).r.xv.getLsbD n.val)) ∧
      ∃ g : QEnt → QEnt, (∀ x, g x = x ∨ x.ret = .port ∧ g x = { x with ret := .oasis }) ∧
        (t.core c).q.ld = ((s.core c).q.ld.erase e).map g ∧ (t.core c).q.at_ = ((s.core c).q.at_.erase e).map g)

/-- R132, R133, R138: the global frame of a ret lands: an even target is taken after three idle cycles and OVP comes down by 16;
that of a uiret is taken as its cycle ends; an odd one is the fault ALIGN of the operation, and nothing is transferred. -/
def Sys2Proof.Stated.PoppedFramesTransfer : Prop :=
  ∀ (c : CoreId) (s : State) (e : QEnt), (s.core c).dueLandings.find? State.isPop = some e → (s.core c).f.at_ = .after →
    (s.core c).f.frozen = false → (s.core c).lateLanding = false → State.writesFirst (s.core c) = false →
    let op := decodeSlot false 0 e.body ((s.core c).m.cwt.get (bodyCx e.body))
    ∃ t, exec (.retFrameLanding c) s = .next t ∧
      ((State.frameTarget e).getLsbD 0 = false →
        (t.core c).w = { (s.core c).w with ovp := (s.core c).w.ovp - 16 } ∧ (t.core c).r = (s.core c).r ∧ t.d = s.d ∧
        ((∀ o, op ≠ some (.alu .uiret o)) → (t.core c).f = { (s.core c).f with pc := State.frameTarget e, extra := 3 }) ∧
        (∀ o, op = some (.alu .uiret o) → (t.core c).f = { (s.core c).f with leave := some (State.frameTarget e) })) ∧
      ((State.frameTarget e).getLsbD 0 = true →
        (t.core c).f = (s.core c).f ∧ (t.core c).w = (s.core c).w ∧ (t.core c).r = (s.core c).r ∧ t.d = s.d ∧
        (t.core c).q.ld = ((s.core c).q.ld.map fun x => if x.seq = e.seq then
          { x with fault := some ⟨.align, 0, State.frameTarget e⟩, land := none } else x))


/-! ### Control and status words (05, 17) -/

/-- R131, R132: br goes to the address of its bundle plus twice its displacement, jr to bits 47 to 0 of a register after three idle
cycles; nothing else changes but the operation's arrival. -/
def Sys2Proof.Stated.BranchesTransfer : Prop :=
  (∀ (o : BrOp) (s : State), Issues (.br .br o) s →
    exec (.br o) s = .next (s.modMe fun k =>
      (k.modF fun f => { f with pc := f.ipc + o.disp.signExtend 64 * 2, extra := 0 }).arriveS (.br .br o))) ∧
  (∀ (o : AluOp) (s : State), Issues (.alu .jr o) s →
    exec (.jr o) s = .next (s.modMe fun k =>
      (k.modF fun f => { f with pc := k.scalarSrc o .none o.a &&& 0xFFFFFFFFFFFF, extra := 3 }).arriveS (.alu .jr o)))

namespace Sys2Proof.Stated

/-- A call to a target after some idle cycles (R36, R133): the frame is written below FSP where the carve-out has room and nothing
has overflowed, else it is a store at OVP; the registers, the device and the other cores are as they were. -/
def Calls (a : W64) (idle : Nat) (s t : State) : Prop :=
  let k := s.me
  let j := t.me
  t.cur = s.cur ∧ t.d = s.d ∧ (∀ c, c ≠ s.cur → t.core c = s.core c) ∧ j.r = k.r ∧ j.f = { k.f with pc := a, extra := idle } ∧
  (k.w.ovp = k.w.ovb ∧ k.w.flo.toNat + 16 ≤ k.w.fsp.toNat →
    j.w = { k.w with fsp := k.w.fsp - 16 } ∧ j.q.st = k.q.st ∧
    j.m.spad.read (k.w.fsp.toNat - 16) 16 = bytesOf 16 (k.f.npc.toNat % 2 ^ 48) ∧
    ∀ n, n + 16 < k.w.fsp.toNat ∨ k.w.fsp.toNat ≤ n → j.m.spad.get n = k.m.spad.get n) ∧
  (¬(k.w.ovp = k.w.ovb ∧ k.w.flo.toNat + 16 ≤ k.w.fsp.toNat) →
    j.w = { k.w with ovp := k.w.ovp + 16 } ∧ j.m = k.m ∧
    ∃ e : QEnt, j.q.st = k.q.st ++ [e] ∧ e.kind = .push ∧ e.space = .glob ∧ e.addr = k.w.ovp ∧ e.size = 16 ∧
      e.data = (k.f.npc &&& 0xFFFFFFFFFFFF).setWidth 1024 ∧ e.done = false ∧ e.fault = none)

end Sys2Proof.Stated

/-- R36, R131, R133: call and callr push a frame with the address of the stored bundle that follows, and transfer. -/
def Sys2Proof.Stated.CallsPushFrames : Prop :=
  (∀ (o : BrOp) (s : State), Issues (.br .call o) s →
    ∃ t, exec (.call o) s = .next t ∧ Calls (s.me.f.ipc + o.disp.signExtend 64 * 2) 0 s t) ∧
  (∀ (o : AluOp) (s : State), Issues (.alu .callr o) s →
    ∃ t, exec (.callr o) s = .next t ∧ Calls (s.me.scalarSrc o .none o.a &&& 0xFFFFFFFFFFFF) 3 s t)

/-- R36, R132, R133: ret goes to the frame at FSP after three idle cycles, where nothing has overflowed; else its frame is read from
OVP − 16 as a load that lands at the end of cycle t + 2. A pop with no frame fails the checks of its issue. -/
def Sys2Proof.Stated.ReturnsPopFrames : Prop :=
  ∀ (o : AluOp) (s : State),
    (Issues (.alu .ret o) s →
      (¬ s.me.w.ovb < s.me.w.ovp → s.me.w.fsp.toNat + 16 ≤ s.me.w.fhi.toNat →
        exec (.ret o) s = .next (s.modMe fun k =>
          ((k.modF fun f => { f with pc := BitVec.ofNat 64 (natOf (k.m.spad.read k.w.fsp.toNat 8) % 2 ^ 48), extra := 3 }).modW
            fun w => { w with fsp := w.fsp + 16 }).arriveS (.alu .ret o))) ∧
      (s.me.w.ovb < s.me.w.ovp →
        ∃ (t : State) (e : QEnt), exec (.ret o) s = .next t ∧ t.d = s.d ∧ (∀ c, c ≠ s.cur → t.core c = s.core c) ∧
          t.me.q.ld = s.me.q.ld ++ [e] ∧ e.kind = .pop ∧ e.space = .glob ∧ e.addr = s.me.w.ovp - 16 ∧ e.size = 16 ∧
          e.land = some (s.me.f.cyc + 2) ∧ e.done = false ∧ t.me.f = { s.me.f with extra := 3 } ∧ t.me.w = s.me.w ∧ t.me.r = s.me.r ∧
          t.me.m = s.me.m)) ∧
    (¬ s.me.w.ovb < s.me.w.ovp → ¬ s.me.w.fsp.toNat + 16 ≤ s.me.w.fhi.toNat → s.me.runs (.alu .ret o) = true →
      s.checks s.cur [((SlotOp.alu .ret o).slot, .alu .ret o)] ≠ none)

/-- R134: loop.br with LC 0 changes nothing; else at the end of its cycle LC and RB come down by one and the stage guard, physical guard
8 + RB mod 8 under the new RB, is all ones exactly where LC was above EC, and the branch is taken. -/
def Sys2Proof.Stated.LoopBranchesRotate : Prop :=
  ∀ (o : BrOp) (s : State), Issues (.br .loopBr o) s →
    (s.me.w.lc = 0 → exec (.loopBr o) s = .next (s.modMe fun k => k.arriveS (.br .loopBr o))) ∧
    (s.me.w.lc ≠ 0 →
      exec (.loopBr o) s = .next (s.modMe fun k =>
        let p := k.blank 0 0 (k.body (.br .loopBr o)) none
        let rb := k.w.rb - 1
        let ws : List Pend :=
          [{ p with dest := .sw 2, val := (k.w.lc - 1).setWidth 1024 },
           { p with dest := .sw 1, val := rb.setWidth 1024 },
           { p with dest := .g ⟨8 + rb.toNat % 8, by omega⟩,
                    val := if k.w.ec.toNat < k.w.lc.toNat then (BitVec.allOnes 128).setWidth 1024 else 0 }]
        (((k.modQ fun q => { q with pend := q.pend ++ ws }).modF
          fun f => { f with pc := f.ipc + o.disp.signExtend 64 * 2, extra := 0 }).arriveS (.br .loopBr o))))

namespace Sys2Proof.Stated

/-- The status words that a write replaces in the bits shown and a read returns (R22, R37, R127, R129, R295, R346, R364, R365). -/
def swRows : List (Nat × W64) :=
  [(0x001, 0xF), (0x002, 0xFFFFFFFF), (0x003, 0x1F), (0x004, 0xFFFFFFFF), (0x005, 0x7FFFF), (0x006, 0x7FFFF), (0x007, 0x7FFFF),
   (0x008, 0xFFFFFFFFFFFFFFFF), (0x009, 0xFFFFFFFFFFFFFFFF), (0x00A, 0x0FFFFFFFFFFFFFC1), (0x00C, 0x0000000FFFFF1FFF),
   (0x00E, 0xFFFFFFFFFFFE), (0x00F, 0x7FFFFFFFFFFFF), (0x010, 0xFFF), (0x011, 0xFFFFFFFFFFFFFFFF), (0x012, 0xFFFFFFFFFFFF),
   (0x014, 0x000FFFFFFFFFF000), (0x015, 0xFFFFFFFF), (0x016, 0xFFFFFFFFFFC0)]

end Sys2Proof.Stated

/-- R126, R296: mfsw leaves the word for sD and the latch; mtsw leaves a for the word at the end of its cycle, but a write of SFC beside
sy.frame, which is dropped. -/
def Sys2Proof.Stated.StatusWordMoves : Prop :=
  ∀ (o : AluOp) (s : State),
    (Issues (.alu .mfsw o) s →
      exec (.mfsw o) s = .next (s.modMe fun k => k.push (scalarResult k .mfsw o 1 (s.readSw s.cur o.imm.toNat) 0))) ∧
    (Issues (.alu .mtsw o) s →
      exec (.mtsw o) s = .next (s.modMe fun k =>
        (if o.imm = 4 ∧ holdsFrame k = true then k
         else k.push { k.blank 0 0 (k.body (.alu .mtsw o)) none with
           dest := .sw o.imm.toNat, val := (k.scalarSrc o .none o.a).setWidth 1024 }).arriveS (.alu .mtsw o)))

/-- R22, R37, R126 to R129, R346, R364: the write of a status word replaces exactly its defined bits, a read returns them, and every
other status word reads as before; ksr takes bits 12 to 8 alone; a dcause word takes the bits of its half. -/
def Sys2Proof.Stated.StatusWordsKeepTheirBits : Prop :=
  ∀ (s : State) (c : CoreId) (v : W64),
    (∀ r ∈ swRows,
      (s.modCore c fun k => k.writeSw r.1 v).readSw c r.1 = v &&& r.2 ∧
      ∀ n, n ≠ r.1 → (s.modCore c fun k => k.writeSw r.1 v).readSw c n = s.readSw c n) ∧
    (s.modCore c fun k => k.writeSw 0 v).readSw c 0 = (s.readSw c 0 &&& ~~~0x1F00) ||| (v &&& 0x1F00) ∧
    (∀ e : Fin 16,
      (s.modCore c fun k => k.writeSw (0x40 + 2 * e.val) v).readSw c (0x40 + 2 * e.val) = v &&& 0xFFFFFFFF ∧
      (s.modCore c fun k => k.writeSw (0x41 + 2 * e.val) v).readSw c (0x41 + 2 * e.val) = v &&& 0xFFFFFFFFFFFF)

/-- R196, R197, R365: a write of MROW keeps UPC, PART, ROW, TOUCH and VALID as the progress of the next call, and every status word reads
as before, MROW too: it reads as the progress of the oldest call that has not finished, zero where there is none. A write of AOWN that
changes OWNER or OV zeroes every bank and latch that the old word marks dirty and leaves the others; one that changes neither zeroes
nothing. -/
def Sys2Proof.Stated.ArrayStatusWords : Prop :=
  ∀ (s : State) (c : CoreId),
    (∀ v : W64, let t := s.modCore c fun k => k.writeSw 0x00B v
      (t.core c).w.mrow = v &&& 0x000001FFFF0FFFFF ∧ ∀ n, t.readSw c n = s.readSw c n) ∧
    ((s.core c).mx.q = [] → s.readSw c 0x00B = 0) ∧
    (∀ m q, (s.core c).mx.q = m :: q → m.upc < 2048 → m.row < 256 →
      let w := s.readSw c 0x00B
      (w.extractLsb' 0 11).toNat = m.upc ∧ w.getLsbD 11 = m.comp ∧ (w.extractLsb' 12 8).toNat = m.row ∧ w.extractLsb' 20 4 = 0 ∧
      w.extractLsb' 24 16 = m.touch ∧ w.getLsbD 40 = true ∧ w.extractLsb' 41 23 = 0) ∧
    (∀ p : Pend, p.dest = .sw 0x00C →
      let k := s.core c
      let j := (s.writeBack c p).core c
      let changes := (p.val.setWidth 64 : W64) &&& 0x1FFF ≠ k.w.aown &&& 0x1FFF
      j.w.aown = p.val.setWidth 64 &&& 0x0000000FFFFF1FFF ∧ j.r.s = k.r.s ∧ j.r.v = k.r.v ∧ j.m.spad = k.m.spad ∧
      (∀ (b : Fin 16) (r : Fin 32), j.m.bank.get (32 * b.val + r.val) =
        if changes ∧ k.w.aown.getLsbD (16 + b.val) = true then 0 else k.m.bank.get (32 * b.val + r.val)) ∧
      (∀ (l : Fin 4) (i : Fin 16384), j.m.sl.get (16384 * l.val + i.val) =
        if changes ∧ k.w.aown.getLsbD (32 + l.val) = true then 0 else k.m.sl.get (16384 * l.val + i.val)))

/-- R130: mov mpD leaves a for the front copy of a parameter, and mfmp the front copy for sD. -/
def Sys2Proof.Stated.MatrixParametersMove : Prop :=
  ∀ (o : AluOp) (s : State),
    (Issues (.alu .movMp o) s → exec (.movMp o) s = .next (s.modMe fun k =>
      let a := k.scalarSrc o .none o.a
      k.push (result k (.alu .movMp o) 0 1 (if o.nowb then .none else .mp (o.d.setWidth 3).toFin) (a.setWidth 1024)
        (BitVec.allOnes 128) (if k.inHandler then none else some 0) (a.setWidth 1024) 0 o.gd.arr))) ∧
    (Issues (.alu .mfmp o) s → exec (.mfmp o) s = .next (s.modMe fun k =>
      k.push (scalarResult k .mfmp o 1 k.r.mp[(o.imm.setWidth 3).toFin] 0)))

/-- R135: at the end of its issue cycle a break or syscall stops the core with its cause, its number in cdata and the next
stored bundle in xpc; where a landing of that cycle is late, once the cycle can end. The readings and choices of log 33 are in
it. -/
def Obligations.BreaksStopTheCore : Prop :=
  ∀ (o : AluOp) (s : State),
    ∀ r ∈ ([(Instr.break, AluTag.break, Cause.break_), (Instr.syscall, AluTag.syscall, Cause.syscall)] :
        List ((AluOp → Instr) × AluTag × Cause)),
      Issues (.alu r.2.1 o) s →
      let t : Trap := ⟨r.2.2, 0, o.imm.setWidth 64⟩
      let u := s.modMe fun k => k.arriveS (.alu r.2.1 o)
      let e := ((u.settleCycle s.cur).nextCycle s.cur).modCore s.cur fun k => k.modF fun f => { f with brk := none }
      (s.me.lateLanding = false → s.me.lateBanks = [] →
        exec (r.1 o) s = .next (e.trap s.cur t false (e.core s.cur).f.pc none (e.idleOwed s.cur))) ∧
      (s.me.lateLanding = true →
        exec (r.1 o) s = .next (u.modCore s.cur fun k => k.modF fun f => { f with brk := some t }))

/-! ### Stops (17) -/

namespace Sys2Proof.Stated

/-- The text of no function whose interface is locked or running lies in n bytes at an address (R395). -/
def TextApart (s : State) (pa n : Nat) : Prop :=
  ∀ f : FnId, s.d.fns[f].iface = .locked ∨ s.d.fns[f].iface = .run →
    s.d.fns[f].svec.toNat + s.d.fns[f].stlen.toNat ≤ pa ∨ pa + n ≤ s.d.fns[f].svec.toNat

/-- A user stream on a core can be put aside: its context is x, and its context area is a place that takes it (R349, R386, R409). -/
def Stoppable (c : CoreId) (x : Ctx) (s : State) : Prop :=
  s.ctxOf c = some x ∧ (s.core c).w.carea ≠ 0 ∧ s.d.areaOk x (s.core c).w.carea.toNat Config.areaBytes = true ∧
  s.d.gone (s.core c).w.carea.toNat 0x24000 = false

end Sys2Proof.Stated

/-- R342, R343, R345, R349, R395: a cause that a user stream meets stops it: cause, cdata and xpc are
written, the level is 1 and the pc the function's SVEC; every latch is invalid, every countdown zero, every queue empty; the
general registers are as they were, and the context area's header begins with the cause. A bundle that a resume left to issue goes on
with the record of an unissued bundle (R357). A region that was open is committed first, and closed. An area over the text of a function
whose interface is locked or running sends that interface to ERROR. The readings and choices of log 12 are in it. -/
def Sys2Proof.Stated.TakingAStop : Prop :=
  ∀ (c : CoreId) (s : State) (t : Trap) (async : Bool) (pc : W64) (b : Option W512) (idle : Nat) (x : Ctx), (s.core c).w.pl = 0 →
    let k := s.core c
    let xpc := if b = none ∧ k.f.next ≠ none then k.f.nextNpc else pc
    let cause := BitVec.ofNat 64 (t.cause.code + 64 * t.slot + 512 * async.toNat + 1024 * k.w.uih.toNat)
    let u := s.trap c t async pc b idle
    let j := u.core c
    (k.rg.opened = false → Stoppable c x s →
      (TextApart s k.w.carea.toNat 0x24000 →
        j.w.cause = cause ∧ j.w.cdata = t.cdata ∧ j.w.xpc = xpc.setWidth 48 ∧ j.w.pl = 1 ∧ j.w.uih = false ∧
        j.f.pc = s.d.fns[x.fn].svec.setWidth 64 ∧ j.w.svec = s.d.fns[x.fn].svec ∧ j.f.peb = 0 ∧
        j.r = { k.r with xv := 0, xp := 0 } ∧ (∀ b : Fin 16, j.mx.bankDue[b] = 0) ∧
        j.q.pend = [] ∧ j.q.slb = [] ∧ j.q.ld = [] ∧ j.q.st = [] ∧ j.q.at_ = [] ∧ j.q.cp = [] ∧ j.q.sh = [] ∧ j.mx.q = [] ∧
        j.q.hold = none ∧ j.q.shold = none ∧ j.q.ui = [] ∧ j.q.joins = [] ∧ j.sup = true ∧ j.supSelf = false ∧ j.m = k.m ∧ j.ph = k.ph ∧
        (∀ a, a ≠ c → u.core a = s.core a) ∧ u.d.fns = s.d.fns ∧ u.d.ctxs = s.d.ctxs ∧
        u.d.areaRead x k.w.carea.toNat 16 = bytesOf 8 j.w.cause.toNat ++ bytesOf 8 t.cdata.toNat) ∧
      (∀ f : FnId, s.d.fns[f].iface = .locked ∨ s.d.fns[f].iface = .run →
        k.w.carea.toNat < s.d.fns[f].svec.toNat + s.d.fns[f].stlen.toNat → s.d.fns[f].svec.toNat < k.w.carea.toNat + 0x24000 →
        u.d.fns[f].iface = .error)) ∧
    (k.rg.opened = true → let v := (s.sampleCut c).commitRegion c
      v.2 = none → Stoppable c x v.1 → TextApart v.1 (v.1.core c).w.carea.toNat 0x24000 →
      j.w.cause = BitVec.ofNat 64 (t.cause.code + 64 * t.slot + 512 * async.toNat + 1024 * (v.1.core c).w.uih.toNat) ∧
      j.w.cdata = t.cdata ∧ j.w.xpc = xpc.setWidth 48 ∧ j.w.pl = 1 ∧ j.f.pc = v.1.d.fns[x.fn].svec.setWidth 64 ∧ j.rg = .reset ∧
      j.r = { (v.1.core c).r with xv := 0, xp := 0 } ∧ j.m = (v.1.core c).m ∧ j.q.st = [] ∧ ∀ a, a ≠ c → u.core a = v.1.core a)

/-- R26, R29, R347: a cause of the supervisor stream writes no context area: it enters at SVEC + 64 at its level with every latch
invalid; PEB, and what the stream issued, stay; a region that it has
open is closed, after its commit (the model's choice, log 104); a second one while the first is handled ends the stopped stream, and the
interface of its function falls. -/
def Sys2Proof.Stated.SupervisorCauses : Prop :=
  ∀ (c : CoreId) (s : State) (t : Trap) (async : Bool) (pc : W64) (b : Option W512) (idle : Nat), (s.core c).w.pl ≠ 0 →
    let u := s.trap c t async pc b idle
    let xpc := if b = none then pc else if (s.core c).f.at_ = .after then (s.core c).f.ipc else (s.core c).f.pc
    let cause := BitVec.ofNat 64 (t.cause.code + 64 * t.slot + 512 * async.toNat + 2048)
    ((s.core c).supSelf = false →
      let j := u.core c
      ((s.core c).rg.opened = false →
        j.w.cause = cause ∧ j.w.cdata = t.cdata ∧
        j.w.xpc = xpc.setWidth 48 ∧ j.w.pl = (s.core c).w.pl ∧ j.f.pc = (s.core c).w.svec.setWidth 64 + 64 ∧ j.supSelf = true ∧
        j.r = { (s.core c).r with xv := 0, xp := 0 } ∧ j.m = (s.core c).m ∧ j.q = (s.core c).q ∧ j.mx = (s.core c).mx ∧
        j.f.peb = (s.core c).f.peb ∧ ((s.core c).f.held = false → u.d = s.d) ∧ ∀ a, a ≠ c → u.core a = s.core a) ∧
      ((s.core c).rg.opened = true →
        j.rg = .reset ∧ j.w.cause = cause ∧ j.w.cdata = t.cdata ∧ j.w.xpc = xpc.setWidth 48 ∧ j.f.pc = j.w.svec.setWidth 64 + 64 ∧
        j.r.xv = 0 ∧ j.supSelf = true)) ∧
    ((s.core c).supSelf = true → ∀ x, s.ctxOf c = some x → u = (s.endStream c).fall x.fn 2 false)


namespace Sys2Proof.Stated

/-- What a supervisor operation of the S slot leaves when its work on s leaves t: its own arrival beside it (R66). -/
def Done (t : AluTag) (o : AluOp) (s : State) : State := s.modMe fun k => k.arriveS (.alu t o)

/-- A supervisor operation of the S slot that holds issue for something, with its operand b (R139, R140). -/
def SHolds (t : AluTag) (o : AluOp) (h : HoldKind) (b : W64) (s : State) : State :=
  s.modMe fun k => k.modQ fun q => { q with shold := some ⟨h, k.f.seq, k.f.ipc, k.body (.alu t o), 0, b, o.gd.arr, false, none⟩ }

/-- The hold h ends in the next step of the core (R231): the core stands at the end of a cycle with nothing left of it, and what h
waits for has come. -/
def HoldOver (c : CoreId) (h : Hold) (s : State) : Prop :=
  let k := s.core c
  k.active = true ∧ k.f.at_ = .after ∧ k.f.frozen = false ∧ State.cycleDone k = true ∧ k.lateBanks = [] ∧ k.f.brk = none ∧
  State.arrayMust k = false ∧ s.drainMust c = false ∧ k.holds = [h] ∧ h.fault = none ∧ s.holdMet c h = true

/-- A hold that ends with no arrival leaves one sample of its n cycles to the monitor (R293). -/
def Cut (c : CoreId) (h : Hold) (n : Nat) (s : State) : State :=
  (s.modD fun d => d.sample (clusOf c) 2 none [n]).modCore c fun k => k.modQ fun q => q.dropHold h.seq

/-- The hold h of a supervisor operation ends with a fault after n cycles, a cause of its stream at its bundle (R139, R347). -/
def HoldFails (c : CoreId) (h : Hold) (n : Nat) (x : Trap) (s : State) : State := Cut c h n (s.stopSup c x true h.ipc)

/-- The operations of R139 in the S slot whose reads and writes are made at the end of their hold. -/
def supRows : List ((AluOp → Instr) × AluTag) :=
  [(.cwtWr, .cwtWr), (.mpsWr, .mpsWr), (.ctxSave, .ctxSave), (.ctxLoad, .ctxLoad), (.bankSave, .bankSave), (.bankLoad, .bankLoad)]

end Sys2Proof.Stated

/-! ### Supervisor operations (05, 17) -/

/-- R139, R140, R272: cwt.wr, mps.wr, ctx.save, ctx.load, bank.save and bank.load hold issue with their operands; their hold ends
once the core's earlier accesses are performed. cwt.rd queues the store of the CWT entry a[8:0] at b. -/
def Sys2Proof.Stated.SupervisorOperationsHold : Prop :=
  (∀ r ∈ supRows, ∀ (o : AluOp) (s : State), Issues (.alu r.2 o) s →
    exec (r.1 o) s = .next (SHolds r.2 o (.sup r.2 (s.me.scalarSrc o .none o.a) (s.me.scalarSrc o .none o.b))
      (s.me.scalarSrc o .none o.b) s)) ∧
  (∀ (c : CoreId) (s : State) (h : Hold) (t : AluTag) (a b : W64), h.kind = .sup t a b → s.holdMet c h = true →
    (∀ e ∈ (s.core c).q.ld ++ (s.core c).q.st ++ (s.core c).q.at_, e.seq < h.seq → e.done = true) ∧
    (t = .bankSave → ∀ i : Fin 16, b.getLsbD i.val = true → (s.core c).mx.bankDue[i] ≤ (s.core c).f.cyc)) ∧
  (∀ (o : AluOp) (s : State), Issues (.alu .cwtRd o) s →
    let a := s.me.scalarSrc o .none o.a
    ∃ (t : State) (e : QEnt), exec (.cwtRd o) s = .next t ∧ t.d = s.d ∧
      (∀ c, c ≠ s.cur → t.core c = s.core c) ∧ t.me.q.st = s.me.q.st ++ [e] ∧ e.kind = .cwtRd ∧ e.space = .glob ∧
      e.addr = s.me.scalarSrc o .none o.b ∧
      e.size = 32 ∧ e.data = (s.me.m.cwt.get (a.toNat % 512)).setWidth 1024 ∧ e.done = false ∧ t.me.r = s.me.r ∧ t.me.w = s.me.w ∧
      t.me.m = s.me.m ∧ t.me.f = s.me.f)

/-- R139, R140: at the end of its hold cwt.wr replaces the CWT entry a[8:0] with the 32 bytes at b, and its poison is gone; mps.wr
puts the 8 bytes at b into the staging half, an entry where a[12] is 1 and a micro-word where it is 0. A fault of the read is a
cause of the supervisor stream at its bundle. -/
def Sys2Proof.Stated.StoreOperations : Prop :=
  ∀ (c : CoreId) (s : State) (h : Hold) (a b : W64), HoldOver c h s →
    (h.kind = .sup .cwtWr a b →
      let u := s.noteVa c h.ipc .read b.toNat 32
      (∀ bs, u.readVa c .read 2 b.toNat 32 = .ok bs → exec (.syHoldEnd c) s = .next ((u.modCore c fun k => k.modM fun m =>
        { m with cwt := m.cwt.set (a.toNat % 512) (BitVec.ofNat 256 (natOf bs)), cwtP := setDel m.cwtP (a.toNat % 512) }).endHold c h)) ∧
      (∀ t, u.readVa c .read 2 b.toNat 32 = .error t → exec (.syHoldEnd c) s = .next (HoldFails c h (s.core c).f.hcyc t u))) ∧
    (h.kind = .sup .mpsWr a b →
      let u := s.noteVa c h.ipc .read b.toNat 8
      (∀ bs, u.readVa c .read 2 b.toNat 8 = .ok bs → exec (.syHoldEnd c) s = .next ((u.modCore c fun k => k.modMx fun m =>
        if a.getLsbD 12 then { m with
          sent := m.sent.set (a.toNat % 256) (BitVec.ofNat 64 (natOf bs)), sentP := setDel m.sentP (a.toNat % 256) }
        else { m with
          smic := m.smic.set (a.toNat % 2048) (BitVec.ofNat 64 (natOf bs)), smicP := setDel m.smicP (a.toNat % 2048) }).endHold c h)) ∧
      (∀ t, u.readVa c .read 2 b.toNat 8 = .error t → exec (.syHoldEnd c) s = .next (HoldFails c h (s.core c).f.hcyc t u)))

/-- R140: resume holds the issue of the supervisor stream; nothing else changes until the hold ends. -/
def Sys2Proof.Stated.ResumeHolds : Prop :=
  ∀ (o : AluOp) (s : State), Issues (.alu .resume o) s →
    exec (.resume o) s = .next (SHolds .resume o (.resume (s.me.scalarSrc o .none o.a) (s.me.scalarSrc o .none o.b).toNat)
      (s.me.scalarSrc o .none o.b) s)

/-- R141: at the end of its hold bank.save writes each selected bank (4,096 bytes, row 0 first) and latch (16,384 bytes) in turn from
a on; bank.load reads them back the same way, and a loaded bank's countdown is zero. A fault on the way is a cause of the
supervisor stream. -/
def Sys2Proof.Stated.BankOperations : Prop :=
  (∀ (c : CoreId) (s : State) (h : Hold) (a b : W64), HoldOver c h s →
    (h.kind = .sup .bankSave a b →
      let r := supRange .bankSave a b
      let u := s.noteVa c h.ipc r.1 r.2.1 r.2.2
      (∀ t, bankSaveFrom u c (bankItems b) a.toNat = (t, none) → exec (.syHoldEnd c) s = .next (t.endHold c h)) ∧
      (∀ t x, bankSaveFrom u c (bankItems b) a.toNat = (t, some x) → exec (.syHoldEnd c) s = .next (HoldFails c h (s.core c).f.hcyc x t))) ∧
    (h.kind = .sup .bankLoad a b →
      let r := supRange .bankLoad a b
      let u := s.noteVa c h.ipc r.1 r.2.1 r.2.2
      (∀ t, bankLoadFrom u c (bankItems b) a.toNat = (t, none) → exec (.syHoldEnd c) s = .next (t.endHold c h)) ∧
      (∀ t x, bankLoadFrom u c (bankItems b) a.toNat = (t, some x) → exec (.syHoldEnd c) s = .next (HoldFails c h (s.core c).f.hcyc x t)))) ∧
  (∀ (s t : State) (c : CoreId) (b : Fin 16) (a : Nat) (bs : List Byte), s.readVa c .read 8 a 4096 = .ok bs →
    bankLoadFrom s c [.inl b.val] a = (t, none) →
    (∀ r : Fin 32, (t.core c).m.bank.get (32 * b.val + r.val) = BitVec.ofNat 1024 (natOf ((bs.drop (128 * r.val)).take 128))) ∧
    (t.core c).mx.bankDue[b] ≤ (t.core c).f.cyc ∧ t.d = s.d ∧ (t.core c).r = (s.core c).r ∧ ∀ d, d ≠ c → t.core d = s.core d)

/-- R354, R383, R388: at the end of its hold ctx.save writes the bulk parts of the context area at a and then sets BULK; ctx.load, of
an area with BULK set whose ctxid is a live context that the core may run, in one run of physical addresses, takes CWT, stores,
phases, dcause and scratchpad from it, and ctxid, PTB and carea; otherwise PROTECTION is a cause of the supervisor stream. The
reading of log 87 is in it. -/
def Sys2Proof.Stated.ContextAreaOperations : Prop :=
  (∀ (c : CoreId) (s : State) (h : Hold) (a b : W64), HoldOver c h s →
    (h.kind = .sup .ctxSave a b →
      let u := s.noteVa c h.ipc .write a.toNat Config.areaBytes
      (∀ t, u.readVa c .read 2 (a.toNat + 0xA0) 8 = .error t → exec (.syHoldEnd c) s = .next (HoldFails c h (s.core c).f.hcyc t u)) ∧
      ∀ rs, u.readVa c .read 2 (a.toNat + 0xA0) 8 = .ok rs →
        let parts := ((u.core c).bulkParts.map fun p => (a.toNat + p.1, p.2)) ++
          [(a.toNat + 0xA0, wordBytes (BitVec.ofNat 64 (natOf rs) ||| BitVec.twoPow 64 42))]
        (∀ t, u.putParts c parts = (t, none) → exec (.syHoldEnd c) s = .next (t.endHold c h)) ∧
        (∀ t x, u.putParts c parts = (t, some x) → exec (.syHoldEnd c) s = .next (HoldFails c h (s.core c).f.hcyc x t))) ∧
    (h.kind = .sup .ctxLoad a b →
      let u := s.noteVa c h.ipc .read a.toNat Config.areaBytes
      let fails := fun (t : Trap) => HoldFails c h (s.core c).f.hcyc t u
      (∀ t, u.placesVa c .read 16 a.toNat Config.areaBytes = .error t → exec (.syHoldEnd c) s = .next (fails t)) ∧
      (∀ ps, u.placesVa c .read 16 a.toNat Config.areaBytes = .ok ps →
        let bulk := u.readVa c .read 16 (a.toNat + 0x24000) (Config.areaBytes - 0x24000)
        let pa := (ps.head?.map fun p => p.1.pa).getD 0
        (∀ t, bulk = .error t → exec (.syHoldEnd c) s = .next (fails t)) ∧
        (∀ bs, bulk = .ok bs →
          ((∃ p ∈ ps, u.d.gone p.1.pa p.2 = true) → exec (.syHoldEnd c) s = .next (fails (trapAt .poison a.toNat))) ∧
          ((∀ p ∈ ps, u.d.gone p.1.pa p.2 = false) →
            (∀ y, u.areaCtx c pa a.toNat = some y → runBreak pa ps a.toNat = none →
              exec (.syHoldEnd c) s = .next (((u.modCore c fun k =>
                { (k.newShadow u.fresh y.no).loadBulk bs with lineCtx := some y.id, lineCar := k.car }.modW fun w =>
                  { w with ctxid := y.id, ptb := y.ptb, sec := y.sec, carea := BitVec.ofNat 64 pa }).modD fun d =>
                    { d with ctxs := d.ctxs.map fun z => if z.id = y.id then { z with carea := BitVec.ofNat 64 pa } else z }).endHold c h)) ∧
            (u.areaCtx c pa a.toNat = none → exec (.syHoldEnd c) s = .next (fails (trapAt .protection a.toNat))) ∧
            (∀ y va, u.areaCtx c pa a.toNat = some y → runBreak pa ps a.toNat = some va →
              exec (.syHoldEnd c) s = .next (fails (trapAt .protection va)))))))) ∧
  (∀ (s : State) (c : CoreId) (pa va : Nat) (x y : Ctx), s.ctxOf c = some x → s.areaCtx c pa va = some y →
    s.areaWord c x.fn (pa + 0x88) (va + 0x88) = some y.id.toNat ∧
    (∃ st : Nat, s.areaWord c x.fn (pa + 0xA0) (va + 0xA0) = some st ∧ st.testBit 42 = true) ∧ y.fn = x.fn ∧
    s.d.clus[clusOf c].owner = some y.fn ∧ s.d.clus[clusOf c].sec = y.sec)

/-- R142, R395: fmask.rd leaves the function's feature mask for sD; fmask.wr, of the machine level, changes the mask of function a[2:0]
at the end of its cycle, and where its interface is locked or running the change of a locked item sends it to ERROR. -/
def Sys2Proof.Stated.FeatureMasks : Prop :=
  ∀ (o : AluOp) (s : State),
    (Issues (.alu .fmaskRd o) s → ∀ f, s.fnOf s.cur = some f →
      exec (.fmaskRd o) s = .next (s.modMe fun k => k.push (scalarResult k .fmaskRd o 1 (s.d.fns[f].mask.setWidth 64) 0))) ∧
    (Issues (.alu .fmaskWr o) s →
      let f : FnId := ((s.me.scalarSrc o .none o.a).setWidth 3).toFin
      exec (.fmaskWr o) s = .next (Done .fmaskWr o (s.modMe fun k => k.push { k.blank 0 0 (k.body (.alu .fmaskWr o)) none with
        dest := .fmask f, val := (s.me.scalarSrc o .none o.b).setWidth 1024 }))) ∧
    (∀ (c : CoreId) (p : Pend) (f : FnId), p.dest = .fmask f →
      let t := s.writeBack c p
      t.d.fns[f].mask = p.val.setWidth 10 ∧
      (∀ g, g ≠ f → t.d.fns[g].mask = s.d.fns[g].mask ∧ t.d.fns[g].iface = s.d.fns[g].iface) ∧
      (s.d.fns[f].iface = .unlocked ∨ s.d.fns[f].iface = .error → t.d.fns[f].iface = s.d.fns[f].iface) ∧
      (s.d.fns[f].iface = .locked ∨ s.d.fns[f].iface = .run → t.d.fns[f].iface = .error))

/-! ### The vector unit (06) -/

namespace Sys2Proof.Stated

/-- The latency of a vector operation (R149): the integer one or the floating one, 4 more with a reducing POST code. -/
def vecLatency (o : AluOp) (i f : Nat) : Nat := (if isFloating o then f else i) + if o.cw.post.isReduce then 4 else 0

/-- The operations of R150 to R152, R154, R155, R157 to R159 and R164 to R169 with a result in a vector register: the step, its
mnemonic, its latencies and its result. -/
def vectorRows : List ((AluOp → Instr) × AluTag × Nat × Nat × (Core → AluOp → VOut)) :=
  [(.vadd, .vadd, 2, 4, fun k o => k.vNum .vadd o fun a b _ => a.add b),
   (.vsub, .vsub, 2, 4, fun k o => k.vNum .vsub o fun a b _ => a.add b.negate),
   (.vmul, .vmul, 3, 4, fun k o => k.vNum .vmul o fun a b _ => a.mul b),
   (.vmin, .vmin, 2, 4, fun k o => k.vNum .vmin o fun a b _ => if a.isNan || b.isNan then .nan else if b.below a then b else a),
   (.vmax, .vmax, 2, 4, fun k o => k.vNum .vmax o fun a b _ => if a.isNan || b.isNan then .nan else if a.below b then b else a),
   (.vfma, .vfma, 3, 4, fun k o => k.vNum .vfma o fun a b c => (a.mul b).add c),
   (.vfms, .vfms, 3, 4, fun k o => k.vNum .vfms o fun a b c => (a.mul b).add c.negate),
   (.vmulh, .vmulh, 3, 4, fun k o => k.vInt .vmulh o fun a b => a * b / 2 ^ o.cw.fd.width),
   (.vand, .vand, 2, 2, fun k o => k.vInt .vand o fun a b =>
     intOf o.cw.fd (wrapTo o.cw.fd.width a &&& wrapTo o.cw.fd.width b)),
   (.vor, .vor, 2, 2, fun k o => k.vInt .vor o fun a b => intOf o.cw.fd (wrapTo o.cw.fd.width a ||| wrapTo o.cw.fd.width b)),
   (.vxor, .vxor, 2, 2, fun k o => k.vInt .vxor o fun a b =>
     intOf o.cw.fd (wrapTo o.cw.fd.width a ^^^ wrapTo o.cw.fd.width b)),
   (.vandn, .vandn, 2, 2, fun k o => k.vInt .vandn o fun a b =>
     intOf o.cw.fd (wrapTo o.cw.fd.width a &&& (2 ^ o.cw.fd.width - 1 - wrapTo o.cw.fd.width b))),
   (.vshl, .vshl, 2, 2, fun k o => k.vInt .vshl o fun a b => a * 2 ^ (b % 256).toNat),
   (.vshr, .vshr, 2, 2, fun k o => k.vInt .vshr o fun a b => a / 2 ^ (b % 256).toNat),
   (.vclz, .vclz, 2, 2, fun k o => k.vInt .vclz o fun a _ => leadingZeros o.cw.fa.width (wrapTo o.cw.fa.width a)),
   (.vpopc, .vpopc, 2, 2, fun k o => k.vInt .vpopc o fun a _ => popcount o.cw.fa.width (wrapTo o.cw.fa.width a)),
   (.vmov, .vmov, 2, 2, fun k o => k.vPat .vmov o fun _ a _ => a),
   (.vsel, .vsel, 2, 2, fun k o => k.vSelect o), (.vcvt, .vcvt, 3, 3, fun k o => k.vConvert o),
   (.vperm, .vperm, 2, 2, fun k o => k.vPermute o), (.vbcast, .vbcast, 2, 2, fun k o => k.vBroadcast o),
   (.vscacc, .vscacc, 5, 5, fun k o => k.vScaleAcc o),
   (.vredsum, .vredsum, 6, 6, fun k o => k.vReduce .vredsum o fun xs => if o.cw.fa.isFlt then treeSum 8 xs else xs.foldl X.add .zero),
   (.vredmax, .vredmax, 6, 6, fun k o => k.vReduce .vredmax o (extreme X.max2)),
   (.vredmin, .vredmin, 6, 6, fun k o => k.vReduce .vredmin o (extreme X.min2)),
   (.vrcp, .vrcp, 12, 12, fun k o => k.vNum .vrcp o fun a _ _ => rcpX a),
   (.vrsqrt, .vrsqrt, 12, 12, fun k o => k.vNum .vrsqrt o fun a _ _ => rsqrtX a),
   (.vsqrt, .vsqrt, 12, 12, fun k o => k.vNum .vsqrt o fun a _ _ => sqrtX a),
   (.vexp2, .vexp2, 12, 12, fun k o => k.vNum .vexp2 o fun a _ _ => exp2X a),
   (.vlog2, .vlog2, 12, 12, fun k o => k.vNum .vlog2 o fun a _ _ => log2X a),
   (.vsin, .vsin, 16, 16, fun k o => k.vSincos .vsin o true), (.vcos, .vcos, 16, 16, fun k o => k.vSincos .vcos o false),
   (.vphmul, .vphmul, 2, 2, fun k o => k.vPat .vphmul o fun _ a b => phComb false o.cw.fa o.cw.fb o.cw.fd a b),
   (.vphsub, .vphsub, 2, 2, fun k o => k.vPat .vphsub o fun _ a b => phComb true o.cw.fa o.cw.fb o.cw.fd a b),
   (.vphacc, .vphacc, 4, 4, fun k o => k.vPhAcc o), (.vphres, .vphres, 8, 8, fun k o => k.vPhRes o)]

/-- The compares of R153 and R167: the step, its mnemonic, its latencies and the guard it computes. -/
def vectorCompareRows : List ((AluOp → Instr) × AluTag × Nat × Nat × (Core → AluOp → W128)) :=
  [(.vcmpEq, .vcmpEq, 2, 4, fun k o => k.vGuard .vcmpEq o fun a b => !a.isNan && !b.isNan && a.cmp b == .eq),
   (.vcmpNe, .vcmpNe, 2, 4, fun k o => k.vGuard .vcmpNe o fun a b => a.isNan || b.isNan || a.cmp b != .eq),
   (.vcmpLt, .vcmpLt, 2, 4, fun k o => k.vGuard .vcmpLt o fun a b => !a.isNan && !b.isNan && a.cmp b == .lt),
   (.vcmpLe, .vcmpLe, 2, 4, fun k o => k.vGuard .vcmpLe o fun a b => !a.isNan && !b.isNan && a.cmp b != .gt),
   (.vcmpUn, .vcmpUn, 2, 4, fun k o => k.vGuard .vcmpUn o fun a b => a.isNan || b.isNan),
   (.vcmpPhb, .vcmpPhb, 2, 2, fun k o => k.vGuardPh .vcmpPhb o .before),
   (.vcmpPho, .vcmpPho, 2, 2, fun k o => k.vGuardPh .vcmpPho o .opposite)]

end Sys2Proof.Stated

/-- R16, R18, R24, R149 to R152, R154, R155, R157 to R159, R164 to R169: an operation of a VA or VB slot leaves the result of its entry for
the end of cycle t + L − 1, for vD in the byte lanes of its width that its guard admits and for the latches of its slot whole;
nothing else changes. -/
def Sys2Proof.Stated.VectorResults : Prop :=
  ∀ r ∈ vectorRows, ∀ (o : AluOp) (s : State), Issues (.alu r.2.1 o) s →
    exec (r.1 o) s = .next (s.modMe fun k =>
      let v := r.2.2.2.2 k o
      k.push (vectorResult k r.2.1 o (vecLatency o r.2.2.1 r.2.2.2.1) v.bits v.flags))

/-- R16, R18, R94, R143, R145, R150: lane j of an element-wise operation without a reducing POST code is its function on lane j of its
sources, brought into FD under SAT after the clamp, and the flags are those of all lanes together. The write of a result reaches exactly
the byte lanes of its vD below its width whose guard bit is 1; a byte lane that is guarded off, or above the width, keeps its value. -/
def Obligations.VectorLanes : Prop :=
  (∀ (s : State) (c : CoreId) (k : Core) (t : AluTag) (o : AluOp) (L bits : Nat) (flags : BitVec 5) (i : Fin 128), o.nowb = false →
    let r := (physReg k.w.rb o.d).toFin
    ((s.writeBack c (vectorResult k t o L bits flags)).core c).r.v[r].extractLsb' (8 * i.val) 8 =
      if i.val < vecBits o.w / 8 ∧ (k.guardVal o.gd).getLsbD i.val = true then BitVec.ofNat 8 (bits / 2 ^ (8 * i.val))
      else (s.core c).r.v[r].extractLsb' (8 * i.val) 8) ∧
  ∀ (k : Core) (t : AluTag) (o : AluOp) (f : X → X → X → X), o.cw.post.isReduce = false → o.cw.fd ≠ .none →
    let e := fun (j : Nat) => finishNum o (f (eltNum (o.wE t) o.cw.fa o.cw.prea (k.vecSrc o o.cw.fa o.a) j)
      (eltNum (o.wE t) o.cw.fb o.cw.preb (k.vecSrc o o.cw.fb o.b) j) (eltNum (o.wE t) o.cw.fc o.cw.prec (k.vecSrc o o.cw.fc o.c) j))
    let n := vecBits o.w / o.wE t
    (∀ j, j < n → field (k.vNum t o f).bits (o.cw.fd.width * j) o.cw.fd.width = (e j).pat) ∧
    (k.vNum t o f).bits < 2 ^ (o.cw.fd.width * n) ∧
    (∀ i, (k.vNum t o f).flags.getLsbD i = decide (∃ j < n, (e j).flags.getLsbD i = true))

/-- R17, R153, R167: a vector compare leaves one guard bit per byte lane for gD under its guard, and the byte mask of its truth for the
latches. -/
def Sys2Proof.Stated.VectorComparesWriteGuards : Prop :=
  ∀ r ∈ vectorCompareRows, ∀ (o : AluOp) (s : State), Issues (.alu r.2.1 o) s →
    exec (r.1 o) s = .next (s.modMe fun k =>
      let g := r.2.2.2.2 k o
      let u : Fin 4 := if o.unit = .vb then 2 else 1
      k.push (result k (.alu r.2.1 o) u.val (vecLatency o r.2.2.1 r.2.2.2.1)
        (if o.nowb then .none else .g (physGuard k.w.rb (o.d.setWidth 4)).toFin) (g.setWidth 1024)
        (lanes (vecBits o.w / 8) &&& k.guardVal o.gd) (some u) (guardBytes g) 0 o.gd.arr))

/-- R153: in the guard of a compare of n elements, the bits of element j's lanes all hold its truth and the bits above are zero. -/
def Sys2Proof.Stated.CompareGuardLanes : Prop :=
  ∀ (k : Core) (t : AluTag) (o : AluOp) (f : X → X → Bool) (i : Nat),
    8 ∣ o.wE t → 0 < o.wE t → i < 128 →
    (k.vGuard t o f).getLsbD i =
      (decide (i / (o.wE t / 8) < vecBits o.w / o.wE t) &&
        f (eltNum (o.wE t) o.cw.fa o.cw.prea (k.vecSrc o o.cw.fa o.a) (i / (o.wE t / 8)))
          (eltNum (o.wE t) o.cw.fb o.cw.preb (k.vecSrc o o.cw.fb o.b) (i / (o.wE t / 8))))

/-- R156, R160 to R162: vext leaves one element, extended to 64 bits, for sD where bit 0 of its guard is 1; vrow leaves a row of a bank,
whole or drained to bf16 under FD, with the row's poison; vwrow leaves its W bits for a row at the end of cycle t + 1 and marks the
bank dirty at once. -/
def Sys2Proof.Stated.ExtractsAndBankRows : Prop :=
  ∀ (o : AluOp) (s : State),
    let u : Fin 4 := if o.unit = .vb then 2 else 1
    let L := vecLatency o 2 2
    (Issues (.alu .vext o) s → exec (.vext o) s = .next (s.modMe fun k =>
      let v := k.vExtract o
      k.push (result k (.alu .vext o) u.val L
        (if o.nowb = false ∧ (k.guardVal o.gd).getLsbD 0 = true then .s (physReg k.w.rb o.d).toFin false else .none)
        (v.setWidth 1024) (BitVec.allOnes 128) (some u) (v.setWidth 1024) 0 o.gd.arr))) ∧
    (Issues (.alu .vrow o) s → ∀ b, o.a = .reg b → exec (.vrow o) s = .next (s.modMe fun k =>
      let i := 32 * (b.toNat % 16) + (k.scalarSrc o .none o.b).toNat % 32
      let v := rowOut o (k.m.bank.get i)
      k.push { vectorResult k .vrow o L v.bits v.flags with poison := k.m.bankP.contains i })) ∧
    (Issues (.alu .vwrow o) s → exec (.vwrow o) s = .next (s.modMe fun k =>
      let v : W1024 := BitVec.ofNat 1024 (k.vWriteRow o % 2 ^ vecBits o.w)
      (k.modW fun w => { w with aown := w.aown ||| BitVec.twoPow 64 (16 + o.d.toNat % 16) }).push
        (result k (.alu .vwrow o) u.val 2
          (if o.nowb then .none else .bank (o.d.setWidth 4).toFin ((k.scalarSrc o .none o.a).setWidth 5).toFin)
          v (lanes (vecBits o.w / 8) &&& k.guardVal o.gd) (some u) v 0 o.gd.arr)))


/-! ### The matrix unit (07) -/

/-- R34, R170 to R173, R196, R365: a call captures its parameters, one of them replaced by OVR, and enters the matrix fetch
queue at the micro-word that its latch mode names, or at the progress that MROW holds pending; the countdown of each bank it
writes becomes the larger of what it was and LAND; the banks and latch are marked dirty; registers, memory and other cores are
as they were. The readings and choices of log 54 are in it. -/
def Obligations.MatrixCallsEnterTheQueue : Prop :=
  ∀ (o : MxOp) (s : State), Issues (.mx o) s →
    let k := s.me
    let e := routineOf (k.mx.ent.get o.rt.toNat)
    let writes := fun (b : Fin 16) => decide (o.lm ≠ .loadOnly) && (List.range 16).any fun i =>
      e.bmask.getLsbD i && (o.rbk.toNat + i) % 16 == b.val
    ∃ (t : State) (m : MxCall), exec (.mxCall o) s = .next t ∧ t.d = s.d ∧ (∀ c, c ≠ s.cur → t.core c = s.core c) ∧
      t.me.mx.q = k.mx.q ++ [m] ∧ m.ent = e ∧ m.sl = o.sl ∧ m.lm = o.lm ∧ m.rbk = o.rbk ∧ m.acc = o.acc ∧
      (∀ i : Fin 8, m.par[i] = match o.ovr with
        | some (n, v) => if n.toNat = i.val then v.setWidth 64 else k.r.mp[i]
        | none => k.r.mp[i]) ∧
      (k.w.mrow.getLsbD 40 = false → m.comp = (o.lm == .use) ∧ m.upc = (if o.lm = .use then e.cpc else e.lpc) ∧ m.row = 0 ∧ m.touch = 0) ∧
      (k.w.mrow.getLsbD 40 = true → m.comp = k.w.mrow.getLsbD 11 ∧ m.upc = (k.w.mrow.extractLsb' 0 11).toNat ∧
        m.row = (k.w.mrow.extractLsb' 12 8).toNat ∧ m.touch = k.w.mrow.extractLsb' 24 16) ∧
      (∀ b : Fin 16, t.me.mx.bankDue[b] =
        if writes b = true then max k.mx.bankDue[b] (k.f.cyc + o.land.toNat) else k.mx.bankDue[b]) ∧
      (∀ b : Fin 16, t.me.w.aown.getLsbD (16 + b.val) = (k.w.aown.getLsbD (16 + b.val) || writes b)) ∧
      (∀ l : Fin 4, t.me.w.aown.getLsbD (32 + l.val) = (k.w.aown.getLsbD (32 + l.val) || (decide (o.lm ≠ .use) && o.sl.toNat == l.val))) ∧
      t.me.w.mrow = k.w.mrow &&& ~~~BitVec.twoPow 64 40 ∧ t.me.r = k.r ∧ t.me.m = k.m ∧ t.me.f = k.f ∧ t.me.q = k.q

namespace Sys2Proof.Stated

/-- The array stands at a micro-word of its head call m, on a running core in an array cycle (R180, R193). -/
def OnArray (c : CoreId) (u : Micro) (s : State) (m : MxCall) : Prop :=
  (s.core c).headAt u = some m ∧ (s.core c).active = true ∧ State.arrayTime (s.core c) = true ∧
  (s.core c).mx.free ≤ (s.core c).mx.acyc

/-- The head call goes on as m in the next array cycle, and nothing else changes. -/
def GoesOn (c : CoreId) (m : MxCall) (s : State) : State :=
  s.modCore c fun k => k.modMx fun x => { x with q := m :: x.q.tail, free := x.acyc + 1 }

/-- The head call goes on as m within its array cycle, and nothing else changes. -/
def Becomes (c : CoreId) (m : MxCall) (s : State) : State := s.modCore c fun k => k.modMx fun x => { x with q := m :: x.q.tail }

end Sys2Proof.Stated

/-- R170, R184: mu.adv adds a parameter or its immediate to pX; mu.loop goes on where pX is 0, else takes 1 from it and jumps; mu.end
leads from the load part to the compute part of a load-then-use call and ends any other. The first two take one array cycle. -/
def Sys2Proof.Stated.ArrayControlWords : Prop :=
  ∀ (c : CoreId) (s : State) (m : MxCall),
    let next := fun (i : Nat) => { m with upc := i, row := 0, rows := [], part := [], elt := 0, t0 := none, wait := 0 }
    (∀ u, OnArray c (.adv u) s m → exec (.muAdv c u) s = .next (GoesOn c { (next (m.upc + 1)) with
      par := m.par.set u.x.toFin (m.par[u.x.toFin] + match u.y with
        | some y => m.par[y.toFin]
        | none => u.imm.signExtend 64) } s)) ∧
    (∀ u, OnArray c (.loop u) s m →
      (m.par[u.x.toFin] = 0 → exec (.muLoop c u) s = .next (GoesOn c (next (m.upc + 1)) s)) ∧
      (m.par[u.x.toFin] ≠ 0 → exec (.muLoop c u) s = .next (GoesOn c { (next u.t.toNat) with
        par := m.par.set u.x.toFin (m.par[u.x.toFin] - 1) } s))) ∧
    (OnArray c .end_ s m →
      (m.comp = false ∧ m.lm = .loadUse →
        exec (.muEnd c) s = .next (Becomes c { (next m.ent.cpc) with comp := true } s)) ∧
      (m.comp = true ∨ m.lm ≠ .loadUse → exec (.muEnd c) s = .next (Becomes c { m with fin := true } s)))

/-- R181, R189, R195: a latch load whose rows are all there stores them row by row into its half and takes one array cycle; where a
row met a fault, the rows before it are stored and the call stays there. A row of n bytes lies at n times its number in the
half. -/
def Sys2Proof.Stated.LatchLoads : Prop :=
  (∀ (c : CoreId) (u : MuLat) (s : State) (m : MxCall), OnArray c (.lat u) s m →
    let o := latOperand u
    let put := fun (k : Core) => k.putRows m.sl.toNat u.h o m.row m.rows
    (m.rowFault = none → o.rows ≤ m.row + m.rows.length →
      exec (.muLat c u) s = .next (GoesOn c
        { m with upc := m.upc + 1, row := 0, rows := [], part := [], elt := 0, t0 := none, wait := 0 } (s.modCore c fun k => put (if u.kind ≠ 2 ∧ m.row = 0 then k.modM fun x =>
          { x with slP := x.slP &&& ~~~BitVec.twoPow 8 (2 * m.sl.toNat + u.h.toNat) } else k)))) ∧
    (m.rowFault ≠ none →
      exec (.muLat c u) s = .next (Becomes c { m with row := m.row + m.rows.length, rows := [] } (s.modCore c put)))) ∧
  (∀ (k : Core) (l : Nat) (h : Bool) (o : Operand) (r : Nat) (xs : List (BitVec 2048)),
    let j := k.putRows l h o r xs
    (∀ i : Fin xs.length, j.m.sl.read (16384 * l + 8192 * h.toNat + (r + i.val) * o.bytes) o.bytes = bytesOf o.bytes xs[i].toNat) ∧
    (∀ a, a < 16384 * l + 8192 * h.toNat + r * o.bytes ∨ 16384 * l + 8192 * h.toNat + (r + xs.length) * o.bytes ≤ a →
      j.m.sl.get a = k.m.sl.get a) ∧
    j.mx = k.mx ∧ j.r = k.r ∧ j.w = k.w ∧ j.q = k.q ∧ j.m.bank = k.m.bank ∧ j.m.spad = k.m.spad)

namespace Sys2Proof.Stated

/-- The block operations of R176: the step and its shape. -/
def blockRows : List ((CoreId → MuMma → Instr) × MmaKind) :=
  [(.muMmaE4m3, .e4m3), (.muMmaBf16, .bf16), (.muMmaBf16q, .bf16q), (.muMmaI8, .i8), (.muMmaPh, .ph)]

/-- Element (kk, j) of B in the half of the latch that a block operation reads: at kk rows and j elements (R185). -/
def bElement (k : Core) (m : MxCall) (kind : MmaKind) (h : Bool) (kk j : Nat) : Nat :=
  let p := 16384 * m.sl.toNat + 8192 * h.toNat + kk * mmaRowB kind + j * (mmaWidth kind / 8)
  if mmaWidth kind = 8 then (k.m.sl.get p).toNat else (k.m.sl.get p).toNat + 256 * (k.m.sl.get (p + 1)).toNat

end Sys2Proof.Stated

/-- R102 to R104, R115, R163, R176, R182, R185, R190, R191, R193: a block operation takes one fetched row of A in one array cycle. Each bank
row that the row of the result lies in holds, element by element, the block sum of its row of A and column of B, on the bank's value
where it accumulates, with what vwrow operations issued before the call have still to write there; no other bank row changes. After its
last row its banks are complete the completion depth later. -/
def Obligations.BlockOperations : Prop :=
  ∀ x ∈ blockRows, ∀ (c : CoreId) (u : MuMma) (s : State) (m : MxCall) (a : BitVec 2048) (rest : List (BitVec 2048)),
    OnArray c (.mma x.2 u) s m → m.rows = a :: rest → m.row < (mmaOperand u x.2).rows →
    let k := (s.core c).seeRows m (mmaRows x.2 m u m.row)
    let n := (mmaOperand u x.2).bytes * 8 / mmaWidth x.2
    let place := fun (part : Nat × Nat × List Nat) => 32 * ((m.rbk.toNat + (u.bo.toNat + part.1) % 16) % 16) + part.2.1
    ∃ t, exec (x.1 c u) s = .next t ∧
      (∀ part ∈ mmaParts x.2 m.row, (t.core c).m.bank.get (place part) = BitVec.ofNat 1024 (packElts (mmaOut x.2) (part.2.2.map fun j =>
        mmaElt x.2 u ((List.range n).map fun kk => (field a.toNat (mmaWidth x.2 * kk) (mmaWidth x.2), bElement k m x.2 u.h kk j))
          (if mmaAcc m u ((u.bo.toNat + part.1) % 16) = true then
            some (field (k.m.bank.get (place part)).toNat (mmaOut x.2 * (j - part.2.2.headD 0)) (mmaOut x.2)) else none)))) ∧
      (∀ i, (∀ part ∈ mmaParts x.2 m.row, i ≠ place part) → (t.core c).m.bank.get i = (s.core c).m.bank.get i) ∧
      (m.row + 1 < (mmaOperand u x.2).rows →
        (t.core c).mx = { k.mx with q := { m with row := m.row + 1, rows := rest } :: k.mx.q.tail, free := k.mx.acyc + 1 }) ∧
      ((mmaOperand u x.2).rows ≤ m.row + 1 → ∃ (h : MxCall) (e : Completion),
        (t.core c).mx = { k.mx with q := h :: k.mx.q.tail, free := k.mx.acyc + 1, comp := k.mx.comp ++ [e] } ∧
        h.upc = m.upc + 1 ∧ h.row = 0 ∧ h.rows = [] ∧ h.par = m.par ∧ e.due = k.mx.acyc + (if x.2 = .ph then 12 else 8) ∧ e.seq = m.seq ∧
        (∀ b : Fin 16, e.banks.getLsbD b.val = (mmaOffsets x.2 u).any fun o => (m.rbk.toNat + o) % 16 == b.val) ∧
        ∀ o : Fin 16, h.touch.getLsbD o.val = (m.touch.getLsbD o.val || (mmaOffsets x.2 u).contains o.val)) ∧
      (t.core c).r = k.r ∧ (t.core c).w = k.w ∧ (t.core c).q = k.q ∧ (t.core c).m.sl = k.m.sl ∧ (t.core c).m.spad = k.m.spad ∧
      t.d = s.d ∧ (∀ b, b ≠ c → t.core b = s.core b) ∧
      ((∀ p ∈ (s.core c).q.slb ++ (s.core c).q.pend, p.seq < m.seq → ∀ (b : Fin 16) (r : Fin 32), p.dest = .bank b r →
        32 * b.val + r.val ∉ mmaRows x.2 m u m.row) → k = s.core c)

/-- R163, R183, R190, R192, R195, R270, R271: a drain stores the next element of its row: the element drained to FD,
a unit of its own, at the parameter's address plus row times stride plus what the row has stored already; 64 rows of 64 elements take 16 array
cycles and 32 rows of 32 elements 4; after the last the call goes on. A fault of the row is found before its first element is stored and
holds the call at it. Every bank and latch is left as it was. The
readings and choices of log 53 are in it. -/
def Obligations.Drains : Prop :=
  (∀ (c : CoreId) (u : MuDrain) (s : State) (m : MxCall), OnArray c (.drain u) s m →
    let w := u.fd.width / 8
    let h := m.elt / 32
    let k := (s.core c).seeRows m [drainAt m u m.row h]
    let bs := ((drainHalf k m u m.row h).drop (w * (m.elt % 32))).take w
    let a := (m.par[u.ap.toFin] + BitVec.ofNat 64 m.row * m.par[u.sp.toFin]).toNat
    let wrote := s.put c (some 3) m.ipc u.space (a + w * m.elt) bs (k.m.bankP.contains (drainAt m u m.row h))
    s.ordered c 5 m.seq (if u.space = .glob then s.kindsIn c 3 (a + w * m.elt) bs.length else []) false false = true →
    (∀ x, drainFault s c m u a = some x → exec (.muDrain c u) s = .next (Becomes c { m with rowFault := some x } s)) ∧
    (drainFault s c m u a = none →
      (∀ x, wrote = .bad x → exec (.muDrain c u) s = .next (Becomes c { m with rowFault := some x } s)) ∧
      (∀ t, wrote = .ok t → (t.core c).mx = (s.core c).mx →
        exec (.muDrain c u) s = .next (
          if m.elt + 1 < (if u.q then 32 else 64) then Becomes c { m with elt := m.elt + 1 } t
          else if m.row + 1 = (if u.q then 32 else 64) then
            GoesOn c { m with upc := m.upc + 1, row := 0, rows := [], part := [], elt := 0, t0 := none, wait := 0 } t
          else if (m.row + 1) % (if u.q then 8 else 4) = 0 then GoesOn c { m with row := m.row + 1, elt := 0 } t
          else Becomes c { m with row := m.row + 1, elt := 0 } t)))) ∧
  (∀ (c : CoreId) (u : MuDrain) (s t : State), exec (.muDrain c u) s = .next t →
    ∀ a, (t.core a).m.bank = (s.core a).m.bank ∧ (t.core a).m.sl = (s.core a).m.sl ∧ (t.core a).r = (s.core a).r) ∧
  (∀ (k : Core) (m : MxCall) (u : MuDrain) (i h j b : Nat), j < 32 → b < u.fd.width / 8 →
    (drainHalf k m u i h)[j * (u.fd.width / 8) + b]? =
      some (BitVec.ofNat 8 (drainTo u.fd (field (k.m.bank.get (drainAt m u i h)).toNat (32 * j) 32) / 2 ^ (8 * b)))) ∧
  (∀ (m : MxCall) (u : MuDrain) (i h : Nat),
    (u.q = true → drainAt m u i h = 32 * ((m.rbk.toNat + u.bo.toNat) % 16) + i) ∧
    (u.q = false → drainAt m u i h = 32 * ((m.rbk.toNat + u.bo.toNat + 2 * (i / 32) + h) % 16) + i % 32))

/-- R32, R38, R66, R172, R173, R193, R195: the completion of a block frees its banks; a call that has finished leaves the queue and its
arrival is made once its LAND and its banks are behind it; a fault held at a row stops the call when the array reaches it. -/
def Sys2Proof.Stated.ArrayEvents : Prop :=
  ∀ (c : CoreId) (s : State), (s.core c).active = true → State.arrayTime (s.core c) = true →
    let k := s.core c
    (∀ x, k.mx.comp.find? (fun x => decide (x.due ≤ k.mx.acyc)) = some x →
      (k.f.frozen = false →
        exec (.blockComplete c) s = .next (s.modCore c fun k => k.modMx fun m => { m with comp := m.comp.erase x })) ∧
      (k.f.frozen = true → State.arrayMust (k.modMx fun m => { m with comp := [], late := [] }) = false →
        ∃ t, exec (.blockComplete c) s = .next t ∧ (t.core c).mx = { k.mx with comp := k.mx.comp.erase x, acyc := k.mx.acyc + 1 } ∧
          (t.core c).r = k.r ∧ (t.core c).m = k.m ∧ (t.core c).q = k.q)) ∧
    (∀ m ms, k.mx.q = m :: ms →
      (m.fin = true →
        (m.arr = none → exec (.matrixCallComplete c) s = .next (s.modCore c fun k => k.modMx fun x => { x with q := ms })) ∧
        (∀ b, m.arr = some b → ∃ t, exec (.matrixCallComplete c) s = .next t ∧ (t.core c).mx.q = ms ∧
          (State.arrivalDue k m = true → (t.core c).q.arr = k.q.arr ++ [(b, m.seq)] ∧ (t.core c).mx.late = k.mx.late) ∧
          (State.arrivalDue k m = false → (t.core c).q.arr = k.q.arr ∧ (t.core c).mx.late = k.mx.late ++ [m]) ∧
          (t.core c).r = k.r ∧ (t.core c).m = k.m ∧ t.d = s.d)) ∧
      (∀ x, m.fault = none → m.rowFault = some x → m.rows = [] → k.mx.free ≤ k.mx.acyc →
        exec (.matrixFault c) s = .next (Becomes c { m with fault := some { x with slot := 3 }, rowFault := none } s)))

/-- R38, R186 to R188, R193 to R195, R250, R251, R270, R271: the next unit of the next row of the operand that the micro-word on the array
needs is fetched, in the order of the matrix fetch queue; the row is there once they are all its bytes. A row that meets a fault is held.
A row of the weight store reaches its bank after the tick in which its fetch began, and one in a bank that is in refresh waits for the
end of the window. -/
def Sys2Proof.Stated.OperandRowsArrive : Prop :=
  ∀ (c : CoreId) (s : State) (m : MxCall) (ms : List MxCall) (u : Micro) (o : Operand),
    let k := s.core c
    let r := m.row + m.rows.length
    let look := if o.space = .handle ∧ m.feat6 = true ∧ m.par[o.sp.toFin].toNat < 4096 then
      s.noteHandle c m.ipc m.par[o.sp.toFin].toNat else s
    let held := fun (x : Trap) => Becomes c { m with rowFault := some x, part := [] } look
    k.active = true → k.mx.q = m :: ms → decodeMicro (k.mx.mic.get m.upc) = some u → Micro.fetched u = some o → m.fault = none →
    m.rowFault = none → m.fin = false → r < o.rows → m.wait ≤ s.d.tick →
    (o.space = .ws → m.t0 = none → exec (.operandRowArrival c) s = .next (Becomes c { m with t0 := some s.d.tick } s)) ∧
    (o.space = .ws → m.t0 = some s.d.tick → exec (.operandRowArrival c) s = notEnabled "OPERAND_ROW_ARRIVAL") ∧
    ((o.space = .ws → ∃ t, m.t0 = some t ∧ t ≠ s.d.tick) →
      (∀ x, s.rowSpots c m o r = .error x → (look.core c).mx = k.mx → exec (.operandRowArrival c) s = .next (held x)) ∧
      (∀ ys, s.rowSpots c m o r = .ok ys → let xs := nextSpots m ys
        s.ordered c 5 m.seq (s.spotKinds c xs) false false = true →
        (s.spotsWait xs = 0 →
          (∀ x, s.getSpots c xs = .bad x → (look.core c).mx = k.mx → exec (.operandRowArrival c) s = .next (held x)) ∧
          (∀ bs p, s.getSpots c xs = .ok bs p → ((s.noteSpots c m.ipc xs).core c).mx = k.mx →
            exec (.operandRowArrival c) s = .next (Becomes c
              (if (m.part ++ bs).length < o.bytes then { m with part := m.part ++ bs }
               else { m with rows := m.rows ++ [BitVec.ofNat 2048 (natOf (m.part ++ bs))], part := [], t0 := none, wait := 0 })
              (s.noteSpots c m.ipc xs)))) ∧
        (0 < s.spotsWait xs → ∃ t, exec (.operandRowArrival c) s = .next t ∧
          (t.core c).mx = { k.mx with q := { m with wait := s.d.tick + s.spotsWait xs } :: ms })))


/-! ### Memory operations (08, 11) -/

namespace Sys2Proof.Stated

/-- The operations of the LD and ST slots (R84). -/
def memRows : List ((MemOp → Instr) × MemTag) :=
  [(.ld, .ld), (.ldAcq, .ldAcq), (.ldTake, .ldTake), (.ldPf, .ldPf), (.st, .st), (.stRel, .stRel), (.stFill, .stFill),
   (.atFadd, .atFadd), (.redFadd, .redFadd), (.atMinN, .atMinN), (.atMaxN, .atMaxN), (.redMinN, .redMinN), (.redMaxN, .redMaxN),
   (.atAdd, .atAdd), (.redAdd, .redAdd), (.atMinI, .atMinI), (.atMaxI, .atMaxI), (.redMinI, .redMinI), (.redMaxI, .redMaxI),
   (.atAnd, .atAnd), (.atOr, .atOr), (.atXor, .atXor), (.redAnd, .redAnd), (.redOr, .redOr), (.redXor, .redXor),
   (.atSwap, .atSwap), (.atCas, .atCas)]

/-- The result that a load or an at form leaves its landing (R27, R210): it lands at the end of cycle t + LAND − 1, no earlier than
its issue cycle. -/
def landsAt (k : Core) (t : MemTag) (o : MemOp) : Option Nat :=
  if t = .ld ∨ t = .ldAcq ∨ t = .ldTake ∨ t.isAt = true then some (k.f.cyc + max o.land.toNat 1 - 1) else none

/-- The bits that a store or an atomic carries (R205, R210): W bits of a vector register, or 64 or 32 of a scalar. -/
def carries (k : Core) (o : MemOp) : W1024 :=
  if o.k then k.readV o.reg &&& BitVec.ofNat 1024 (2 ^ vecBits o.w - 1)
  else if o.w = 0 then (k.readS o.reg).setWidth 1024 else ((k.readS o.reg).setWidth 32).setWidth 1024

end Sys2Proof.Stated

/-- R199, R201, R203, R205, R207, R210: an operation of the LD or ST slot beyond the spill RAM enters the load, store or atomic queue with
its address, size, data and landing; it is not performed yet, and registers, memory and the other cores are as they were. -/
def Sys2Proof.Stated.MemoryOperationsEnterTheirQueue : Prop :=
  ∀ x ∈ memRows, ∀ (o : MemOp) (s : State), Issues (.mem x.2 o) s → o.space ≠ .spill →
    let k := s.me
    ∃ (t : State) (e : QEnt), exec (x.1 o) s = .next t ∧
      t.me.q.ld = (if x.2.isLd then k.q.ld ++ [e] else k.q.ld) ∧
      t.me.q.st = (if x.2.isSt then k.q.st ++ [e] else k.q.st) ∧
      t.me.q.at_ = (if x.2.isLd ∨ x.2.isSt then k.q.at_ else k.q.at_ ++ [e]) ∧
      e.kind = .op x.2 ∧ e.space = o.space ∧ e.handle = o.off.toNat % 4096 ∧
      e.addr = (let b := match o.base with
        | some n => k.readS n
        | none => 0
        if o.space = .handle then b else b + o.off.signExtend 64) ∧
      e.size = (if o.k then vecBits o.w / 8 else if o.w = 0 then 8 else 4) ∧
      e.data = (if x.2.isLd then 0 else carries k o) ∧ e.cmp = (if x.2 = .atCas then k.readS (o.reg + 1) else 0) ∧
      e.land = landsAt k x.2 o ∧ e.shift = (landsAt k x.2 o).isSome ∧ e.done = false ∧ e.prog = 0 ∧ e.fault = none ∧
      t.me.r = k.r ∧ t.me.w = k.w ∧ t.me.m = k.m ∧ t.me.mx = k.mx ∧ t.d = s.d ∧ (∀ c, c ≠ s.cur → t.core c = s.core c) ∧
      t.me.f = { k.f with wsAt := t.me.f.wsAt, evs := t.me.f.evs } ∧ (o.space ≠ .ws → t.me.f.wsAt = k.f.wsAt) ∧
      (x.2 ≠ .atFadd ∧ x.2 ≠ .redFadd → t.me.f.evs = k.f.evs)

/-- R35: a load of the spill RAM leaves its bytes for the end of its issue cycle and its latch group; a store is written there at
once, and every other byte of the spill RAM is as it was. -/
def Sys2Proof.Stated.SpillAccesses : Prop :=
  (∀ (o : MemOp) (s : State), Issues (.mem .ld o) s → o.space = .spill →
    let n := if o.k then vecBits o.w / 8 else if o.w = 0 then 8 else 4
    ∃ (t : State) (p : Pend), exec (.ld o) s = .next t ∧ t = s.modMe (fun k => k.push p) ∧ p.due = s.me.f.cyc ∧
      p.val = BitVec.ofNat 1024 (natOf (s.me.m.spill.read o.off.toNat n)) ∧ p.latch = p.val ∧ p.shift = some 3 ∧
      (o.nr = true → p.dest = .none) ∧
      (o.nr = false → o.k = true → p.dest = .v (physReg s.me.w.rb o.reg).toFin ∧ p.mask = lanes n) ∧
      (o.nr = false → o.k = false → p.dest = s.me.destS o.reg (o.w == 1))) ∧
  (∀ (o : MemOp) (s : State), Issues (.mem .st o) s → o.space = .spill →
    let n := if o.k then vecBits o.w / 8 else if o.w = 0 then 8 else 4
    ∃ t, exec (.st o) s = .next t ∧ t.me.m.spill.read o.off.toNat n = bytesOf n (carries s.me o).toNat ∧
      (∀ a, a < o.off.toNat ∨ o.off.toNat + n ≤ a → t.me.m.spill.get a = s.me.m.spill.get a) ∧
      t.me.m.spad = s.me.m.spad ∧ t.me.r = s.me.r ∧ t.me.w = s.me.w ∧ t.me.f = s.me.f ∧ t.d = s.d ∧
      ∀ c, c ≠ s.cur → t.core c = s.core c)

namespace Sys2Proof.Stated

/-- The first entry of a list that is not performed, which no fault, order or check stands before (R199 to R201, R233, R275). -/
def MayPerform (c : CoreId) (q : Nat) (s : State) (l : List QEnt) (e : QEnt) : Prop :=
  l.find? (fun x => !x.done) = some e ∧ e.fault = none ∧ s.mayGo c q e = true ∧ s.accessCheck c e = none ∧ e.space ≠ .handle

/-- A fault of an entry stays with it, and nothing else changes (R203, R205). -/
def Faulted (c : CoreId) (e : QEnt) (x : Trap) (slot : Nat) (s : State) : State :=
  let g := fun (y : QEnt) => if y.seq = e.seq then { y with fault := some { x with slot := slot } } else y
  s.modCore c fun k => k.modQ fun q => { q with ld := q.ld.map g, st := q.st.map g, at_ := q.at_.map g }

end Sys2Proof.Stated

/-- R199, R200, R203, R204, R207, R250, R270: the load queue performs its first load unit by unit: the unit's bytes join its data in
their place, it is performed after its last, ld.take leaves its lines empty, and a fault stays with the entry; a read that
reaches a weight-store bank in refresh waits for the end of the window; a prefetch only frees its entry. Registers and memory are as they were. -/
def Sys2Proof.Stated.LoadsPerform : Prop :=
  ∀ (c : CoreId) (s : State) (e : QEnt) (t : MemTag),
    (t.isLd = true → e.kind = .op t → t ≠ .ldPf → MayPerform c 0 s (s.core c).q.ld e → (s.core c).rg.opened = false → s.wsReady e = true →
      let a := e.addr.toNat + e.prog
      let n := s.unitLen c e.space e.addr.toNat e.size e.prog
      let waits := e.until_ = 0 ∧ 0 < s.loadWait e
      (waits → ∃ u, exec (.loadPerform c) s = .next u ∧ (u.core c).q.ld = ((s.core c).q.ld.map fun y =>
        if y.seq = e.seq then { y with until_ := s.d.tick + s.loadWait e } else y) ∧ u.d.mem = s.d.mem ∧ u.d.ws = s.d.ws ∧
        (u.core c).r = (s.core c).r ∧ (u.core c).m = (s.core c).m) ∧
      (∀ x, ¬ waits → s.get c none e.space a n = .bad x → exec (.loadPerform c) s = .next (Faulted c e x 4 s)) ∧
      (∀ bs p, ¬ waits → s.get c none e.space a n = .ok bs p →
        ∃ (u : State) (f : QEnt → QEnt) (g : QEnt → Nat), exec (.loadPerform c) s = .next u ∧
        (u.core c).q.ld = ((s.core c).q.ld.map fun y => if y.seq = e.seq then f y else { y with t0 := g y }) ∧
        (f e).data = e.data ||| BitVec.ofNat 1024 (natOf bs * 2 ^ (8 * e.prog)) ∧ (f e).prog = e.prog + n ∧
        (f e).done = decide (e.size ≤ e.prog + n) ∧ (f e).poison = (e.poison || p) ∧ (f e).fault = none ∧
        (f e).land = e.land ∧ (f e).dest = e.dest ∧ (f e).ret = e.ret ∧
        (u.core c).r = (s.core c).r ∧ (u.core c).f = { (s.core c).f with evs := (u.core c).f.evs } ∧
        (∀ b, (u.core b).m.spad = (s.core b).m.spad ∧ (u.core b).m.bank = (s.core b).m.bank) ∧
        (e.space ≠ .glob → u.d.mem = s.d.mem ∧ (t = .ldTake → (e.space = .loc ∨ e.space = .clu) →
          ∀ l ∈ linesOf (spadOf c e.space e.addr.toNat).2 e.size, l ∈ (u.core (spadOf c e.space e.addr.toNat).1).m.empty)))) ∧
    (e.kind = .op .ldPf → (s.core c).q.ld.find? (fun x => !x.done) = some e → e.fault = none → s.mayGo c 0 e = true →
      ∃ u, exec (.loadPerform c) s = .next u ∧ (u.core c).q.ld = ((s.core c).q.ld.filter fun y => y.seq != e.seq) ∧ u.d = s.d ∧
        (u.core c).r = (s.core c).r ∧ (u.core c).m = (s.core c).m)

/-- R199, R200, R204, R205, R270: the store queue performs its first store unit by unit, outside a region: the unit's bytes
are written at their place; after the last the entry is freed and its arrival made, and st.fill leaves its lines full. A fault
stays with the entry. -/
def Sys2Proof.Stated.StoresPerform : Prop :=
  ∀ (c : CoreId) (s : State) (e : QEnt) (es : List QEnt) (t : MemTag),
    (s.core c).q.st = e :: es → e.kind = .op t → t.isSt = true → e.done = false → MayPerform c 1 s (s.core c).q.st e →
    (s.core c).rg.opened = false →
    let a := e.addr.toNat + e.prog
    let n := s.unitLen c e.space e.addr.toNat e.size e.prog
    let bs := bytesOf n (e.data.toNat / 2 ^ (8 * e.prog))
    (∀ x, s.put c none e.ipc e.space a bs false = .bad x → exec (.storePerform c) s = .next (Faulted c e x 5 s)) ∧
    (∀ u, s.put c none e.ipc e.space a bs false = .ok u → (u.core c).q = (s.core c).q → ∃ v, exec (.storePerform c) s = .next v ∧
      (∀ b, (v.core b).m.spad = (u.core b).m.spad ∧ (v.core b).r = (u.core b).r) ∧ v.d = u.d ∧
      (e.size ≤ e.prog + n → (v.core c).q.st = (es.filter fun y => y.seq != e.seq) ∧
        (v.core c).q.arr = (s.core c).q.arr ++ (e.arr.map fun b => (b, e.seq)).toList) ∧
      (e.prog + n < e.size → (v.core c).q.st = (e :: es).map fun y => if y.seq = e.seq then { y with prog := e.prog + n } else y) ∧
      (t = .stFill → (e.space = .loc ∨ e.space = .clu) → ∀ l ∈ linesOf (spadOf c e.space e.addr.toNat).2 e.size,
        l ∉ (v.core (spadOf c e.space e.addr.toNat).1).m.empty))

namespace Sys2Proof.Stated

/-- An operation of the LD or ST slot through handle h with n elements may perform its next element, e.prog (R208). -/
def MayReach (c : CoreId) (q : Nat) (s : State) (e : QEnt) (h : Handle) (n : Nat) : Prop :=
  e.space = .handle ∧ e.fault = none ∧ s.mayGo c q e = true ∧ s.handle c e.handle = .ok h ∧ h.count e.size = some n ∧
  (s.core c).rg.opened = false

/-- The element of a handle access that is next lies inside the extents, at (C0 + prog, C1, C2, C3) (R202, R208). -/
def Inside (e : QEnt) (h : Handle) : Prop :=
  (e.addr.extractLsb' 0 16).toNat + e.prog < h.e 0 ∧ (e.addr.extractLsb' 16 16).toNat < h.e 1 ∧
  (e.addr.extractLsb' 32 16).toNat < h.e 2 ∧ (e.addr.extractLsb' 48 16).toNat < h.e 3

/-- The address of the next element of a handle access (R262 to R266). -/
def elementAt (s : State) (c : CoreId) (e : QEnt) (h : Handle) : Except Trap Nat :=
  s.elementVa c h ((e.addr.extractLsb' 0 16).toNat + e.prog) (e.addr.extractLsb' 16 16).toNat (e.addr.extractLsb' 32 16).toNat
    (e.addr.extractLsb' 48 16).toNat

end Sys2Proof.Stated

/-- R202, R208, R259, R260, R264, R343: a load or store through a handle performs its elements one by one, each where the redirector sends
it; an element outside the extents reads as zero, or in a phasor format as canonical undefined, and is not written. A handle index that
names no handle, and a width of no whole number of elements, fault LAYOUT_FAULT with the handle in cdata; a fault stays with the entry.
Atomics and reductions have no handle form. -/
def Sys2Proof.Stated.HandleAccesses : Prop :=
  (∀ (c : CoreId) (s : State) (e : QEnt) (t : MemTag) (h : Handle) (n : Nat), t.isLd = true → t ≠ .ldPf → e.kind = .op t →
    (s.core c).q.ld.find? (fun x => !x.done) = some e → MayReach c 0 s e h n → e.prog < n →
    let w := h.fmt.width / 8
    let performed := fun (bs : List Byte) (bad : Bool) => ∃ (u : State) (f : QEnt → QEnt) (g : QEnt → Nat),
      exec (.loadPerform c) s = .next u ∧
      (u.core c).q.ld = ((s.core c).q.ld.map fun y => if y.seq = e.seq then f y else { y with t0 := g y }) ∧
      (f e).data = e.data ||| BitVec.ofNat 1024 (natOf bs * 2 ^ (8 * e.prog * w)) ∧ (f e).prog = e.prog + 1 ∧
      (f e).done = decide (n ≤ e.prog + 1) ∧ (f e).poison = (e.poison || bad) ∧ (f e).fault = none ∧ (f e).land = e.land ∧
      (u.core c).r = (s.core c).r ∧ ∀ b, (u.core b).m.spad = (s.core b).m.spad
    (Inside e h → ∀ va, elementAt s c e h = .ok va →
      (∀ bs bad, s.get c none .glob va w = .ok bs bad → performed bs bad) ∧
      (∀ x, s.get c none .glob va w = .bad x → exec (.loadPerform c) s = .next (Faulted c e x 4 (s.noteLook c e)))) ∧
    (Inside e h → ∀ x, elementAt s c e h = .error x → exec (.loadPerform c) s = .next (Faulted c e x 4 (s.noteLook c e))) ∧
    (¬ Inside e h → performed (bytesOf w (match h.fmt with
      | .ph8 | .ph16 => 1
      | .phc32 => 0x00010000
      | _ => 0)) false)) ∧
  (∀ (c : CoreId) (s : State) (e : QEnt) (es : List QEnt) (t : MemTag) (h : Handle) (n : Nat), e.kind = .op t → t = .st →
    (s.core c).q.st = e :: es → MayReach c 1 s e h n → e.prog < n →
    let w := h.fmt.width / 8
    let bs := bytesOf w (e.data.toNat / 2 ^ (8 * w * e.prog))
    let moves := fun (v : State) =>
      (n ≤ e.prog + 1 → (v.core c).q.st = (es.filter fun y => y.seq != e.seq) ∧
        (v.core c).q.arr = (s.core c).q.arr ++ (e.arr.map fun b => (b, e.seq)).toList) ∧
      (e.prog + 1 < n → (v.core c).q.st = (e :: es).map fun y => if y.seq = e.seq then { y with prog := e.prog + 1 } else y)
    (Inside e h → ∀ va, elementAt s c e h = .ok va →
      let seen := s.noteUnit c e w
      (∀ u, seen.put c none e.ipc .glob va bs false = .ok u → (u.core c).q = (s.core c).q →
        ∃ v, exec (.storePerform c) s = .next v ∧ v.d = u.d ∧ moves v ∧ ∀ b, (v.core b).r = (s.core b).r ∧ (v.core b).m = (s.core b).m) ∧
      (∀ x, seen.put c none e.ipc .glob va bs false = .bad x → exec (.storePerform c) s = .next (Faulted c e x 5 (s.noteLook c e)))) ∧
    (Inside e h → ∀ x, elementAt s c e h = .error x → exec (.storePerform c) s = .next (Faulted c e x 5 (s.noteLook c e))) ∧
    (¬ Inside e h → ∃ v, exec (.storePerform c) s = .next v ∧ v.d = s.d ∧ moves v ∧
      ∀ b, (v.core b).r = (s.core b).r ∧ (v.core b).m = (s.core b).m)) ∧
  (∀ (c : CoreId) (s : State) (e : QEnt) (t : MemTag) (x : Trap), e.kind = .op t → e.space = .handle → e.fault = none →
    (s.handle c e.handle = .error x ∨ ∃ h, s.handle c e.handle = .ok h ∧ h.count e.size = none ∧
      x = ⟨.layoutFault, 0, BitVec.ofNat 64 e.handle⟩) →
    ((s.core c).q.ld.find? (fun x => !x.done) = some e → t.isLd = true → t ≠ .ldPf → s.mayGo c 0 e = true →
      exec (.loadPerform c) s = .next (Faulted c e x 4 (s.noteLook c e))) ∧
    (∀ es, (s.core c).q.st = e :: es → t = .st → s.mayGo c 1 e = true →
      exec (.storePerform c) s = .next (Faulted c e x 5 (s.noteLook c e)))) ∧
  (∀ (h : Handle) (size : Nat), h.count size = none ↔ h.fmt.width = 0 ∨ size * 8 / h.fmt.width = 0 ∨ ¬ h.fmt.width ∣ size * 8) ∧
  (∀ (t : MemTag) (o : MemOp), o.space = .handle → (SlotOp.mem t o).encOk = true → t = .ld ∨ t = .st)

/-- R240, R348: in an open idempotent region a store to the global space, or to the cluster window beyond the core's own scratchpad, goes
unit by unit to the region's list, with nothing written and its entry freed after its last (that a held store counts as performed is the
model's choice, log 107); one that would need a 257th line has every held line committed first. The commit writes the held parts in
store order, up to the first that faults: in the scratchpads each byte takes its latest held value. -/
def Sys2Proof.Stated.RegionStores : Prop :=
  (∀ (c : CoreId) (s : State) (e : QEnt) (es : List QEnt) (t : MemTag), (s.core c).q.st = e :: es → e.kind = .op t →
    t = .st ∨ t = .stRel → MayPerform c 1 s (s.core c).q.st e → (s.core c).rg.opened = true → (s.core c).rg.unbuf = false →
    (s.core c).rg.seq < e.seq → e.space = .glob ∨ (e.space = .clu ∧ ownRange c .clu e.addr = none) →
    let a := e.addr.toNat + e.prog
    let n := s.unitLen c e.space e.addr.toNat e.size e.prog
    let all := (s.core c).rg.held ++ [⟨e, e.prog, e.space, BitVec.ofNat 64 a, bytesOf n (e.data.toNat / 2 ^ (8 * e.prog))⟩]
    (256 < heldLines all → exec (.storePerform c) s = .next (s.commitRegion c).1) ∧
    (heldLines all ≤ 256 →
      (∀ x, e.space = .glob → (s.reach c .write a n).1 = .bad x → exec (.storePerform c) s = .next (Faulted c e x 5 s)) ∧
      (e.space = .clu ∨ (∃ bs p, (s.reach c .write a n).1 = .ok bs p) → ∃ v, exec (.storePerform c) s = .next v ∧
        (v.core c).rg = { (s.core c).rg with held := all } ∧ v.d = s.d ∧ (∀ b, (v.core b).m = (s.core b).m ∧ (v.core b).r = (s.core b).r) ∧
        (e.size ≤ e.prog + n → (v.core c).q.st = es.filter fun y => y.seq != e.seq) ∧
        (e.prog + n < e.size →
          (v.core c).q.st = (e :: es).map fun y => if y.seq = e.seq then { y with prog := e.prog + n } else y)))) ∧
  (∀ (c : CoreId) (hs gs : List Held) (s : State),
    let a := s.commitList c hs
    (a.2.2 = none → s.commitList c (hs ++ gs) = a.1.commitList c gs) ∧
    (a.2.2 ≠ none → s.commitList c (hs ++ gs) = (a.1, a.2.1 ++ gs, a.2.2))) ∧
  (∀ (c : CoreId) (s : State), (∀ h ∈ (s.core c).rg.held, h.space = .clu) →
    let t := s.commitRegion c
    t.2 = none ∧ (t.1.core c).rg.held = [] ∧ (t.1.core c).rg.unbuf = true ∧ t.1.d = s.d ∧
    ∀ b i, (t.1.core b).m.spad.get i = (s.core c).rg.held.foldl (fun v h =>
      let w := spadOf c .clu h.addr.toNat
      if w.1 = b ∧ w.2 ≤ i ∧ i < w.2 + h.bytes.length then h.bytes.getD (i - w.2) 0 else v) ((s.core b).m.spad.get i)) ∧
  (∀ (c : CoreId) (s : State) (h : Held) (hs : List Held) (x : Trap), (s.core c).rg.held = h :: hs → s.commitHeld c h = .error x →
    let t := s.commitRegion c
    t.2 = some { x with slot := 5 } ∧
    ∃ e es, (t.1.core c).q.st = e :: es ∧ e.seq = h.ent.seq ∧ e.prog = h.from_ ∧ e.done = false ∧ e.fault = t.2)

/-- R199 to R204, R207, R208, R250, R259 to R266, R270: loads are performed unit by unit, and through a handle element by element. The
readings and choices of log 2, 3, 9 are in it. -/
def Obligations.LoadsArePerformed : Prop :=
  Stated.LoadsPerform ∧ Stated.HandleAccesses

/-- R199 to R205, R240, R270, R348: stores are performed unit by unit at their place; those of an open region wait in it for its commit, in
store order. The readings and choices of log 9, 92, 107 are in it. -/
def Obligations.StoresArePerformed : Prop :=
  Stated.StoresPerform ∧ Stated.RegionStores

/-- R199, R204, R271, R276: a write puts its bytes at their place of a scratchpad, of the die's weight store or of physical
memory, and every other byte of the spaces is as it was, but for pages pending scrub, which read as zeros (R415). The readings
and choices of log 3 are in it. -/
def Obligations.WritesReachTheirPlace : Prop :=
  ∀ (s t : State) (c : CoreId) (e : Option (Fin 4)) (ipc : W64) (a : Nat) (bs : List Byte),
    (∀ sp, sp = .loc ∨ sp = .clu → s.put c e ipc sp a bs false = .ok t →
      let w := spadOf c sp a
      (t.core w.1).m.spad.read w.2 bs.length = bs ∧
      (∀ i, i < w.2 ∨ w.2 + bs.length ≤ i → (t.core w.1).m.spad.get i = (s.core w.1).m.spad.get i) ∧
      (∀ b, b ≠ w.1 → t.core b = s.core b) ∧ t.d = s.d) ∧
    (s.put c e ipc .ws a bs false = .ok t →
      (t.d.ws[dieOf c]).read a bs.length = bs ∧
      (∀ i, i < a ∨ a + bs.length ≤ i → (t.d.ws[dieOf c]).get i = (s.d.ws[dieOf c]).get i) ∧
      (∀ i : Fin 4, i ≠ dieOf c → t.d.ws[i] = s.d.ws[i]) ∧ t.d.mem = s.d.mem ∧ t.cores = s.cores) ∧
    (∀ p, s.placesVa c .write 8 a bs.length = .ok [(p, bs.length)] → s.put c e ipc .glob a bs false = .ok t →
      t.d.mem.read p.pa bs.length = bs ∧
      (∀ i, i < p.pa ∨ p.pa + bs.length ≤ i → s.d.pending i = false → t.d.mem.get i = s.d.mem.get i) ∧
      (∀ b, (t.core b).m = (s.core b).m ∧ (t.core b).r = (s.core b).r) ∧ t.d.ws = s.d.ws)

/-- R100, R101, R210: new of each atomic and reduction on 64 bits, and on the low 32 bits zero-extended; at.cas writes its second operand
exactly where its first matches; fadd is the f32 sum rounded to nearest even. The readings and choices of log 45 are in it. -/
def Obligations.AtomicResults : Prop :=
  ∀ (a v c : W64),
    let M : W64 := 0xFFFFFFFF
    redApply .add true a v c = a + v ∧ redApply .and true a v c = a &&& v ∧ redApply .or true a v c = a ||| v ∧
    redApply .xor true a v c = a ^^^ v ∧ redApply .swap true a v c = v ∧ redApply .cas true a v c = (if a = v then c else a) ∧
    redApply .minN true a v c = (if v < a then v else a) ∧ redApply .maxN true a v c = (if a < v then v else a) ∧
    redApply .minI true a v c = (if v.slt a then v else a) ∧ redApply .maxI true a v c = (if a.slt v then v else a) ∧
    (∀ op, op ≠ .fadd → redApply op false a v c = redApply op false (a &&& M) (v &&& M) (c &&& M) &&& M) ∧
    redApply .add false a v c = (a + v) &&& M ∧ redApply .and false a v c = a &&& v &&& M ∧
    redApply .or false a v c = (a ||| v) &&& M ∧ redApply .xor false a v c = (a ^^^ v) &&& M ∧ redApply .swap false a v c = v &&& M ∧
    redApply .cas false a v c = (if a &&& M = v &&& M then c &&& M else a &&& M) ∧
    redApply .minN false a v c = (if v &&& M < a &&& M then v &&& M else a &&& M) ∧
    redApply .maxN false a v c = (if a &&& M < v &&& M then v &&& M else a &&& M) ∧
    redApply .minI false a v c = (if (v.setWidth 32).slt (a.setWidth 32) then v else a) &&& M ∧
    redApply .maxI false a v c = (if (a.setWidth 32).slt (v.setWidth 32) then v else a) &&& M ∧
    redApply .fadd false a v c =
      BitVec.ofNat 64 ((floatFmt .f32).rne (((floatFmt .f32).toX (a &&& M).toNat).add ((floatFmt .f32).toX (v &&& M).toNat)))

/-- R199, R210, R405: the first atomic or reduction is performed at its home as one step: an at form is performed with the old value as
its data, a red form is freed with its arrival. In a scratchpad the new value stands at its place and every other byte is as it was. -/
def Sys2Proof.Stated.AtomicsArePerformed : Prop :=
  ∀ (c : CoreId) (s u : State) (e : QEnt) (t : MemTag) (old : List Byte) (p : Bool),
    e.kind = .op t → MayPerform c 4 s (s.core c).q.at_ e → s.windowPlace c e = none →
    s.rmw c e.ipc e.space e.addr.toNat e.size (.atomic t.isAt)
      (fun x => redApply (redOpOf t) (e.size == 8) x (e.data.setWidth 64) e.cmp) = (.ok old p, u) →
    ∃ v, exec (.atomicPerform c) s = .next v ∧
      (t.isAt = true → v = u.modCore c fun k => k.modEntry e.seq fun x =>
        { x with data := BitVec.ofNat 1024 (natOf old), done := true, prog := e.size }) ∧
      (t.isAt = false → v = u.freeEntry c e) ∧
      (e.space = .loc ∨ e.space = .clu →
        let w := spadOf c e.space e.addr.toNat
        old = (s.core w.1).m.spad.read w.2 e.size ∧
        (v.core w.1).m.spad.read w.2 e.size =
          bytesOf e.size (redApply (redOpOf t) (e.size == 8) (BitVec.ofNat 64 (natOf old)) (e.data.setWidth 64) e.cmp).toNat ∧
        (∀ i, i < w.2 ∨ w.2 + e.size ≤ i → (v.core w.1).m.spad.get i = (s.core w.1).m.spad.get i) ∧ v.d = s.d ∧
        ∀ b, (v.core b).r = (s.core b).r)

/-- R286, R287, R307, R405, R409: a red form on a page of a reduction window joins the contributions of its location and is freed, or
meets POISON where its unit is poisoned or its page lost; a round whose partials are all there is merged in one update of its
home, which is not performed where that is poisoned or lost. -/
def Sys2Proof.Stated.ReductionWindows : Prop :=
  (∀ (c : CoreId) (s : State) (e : QEnt) (p : Place), MayPerform c 4 s (s.core c).q.at_ e → s.windowPlace c e = some p →
    (s.d.gone p.pa e.size = true ∨ s.d.memPoisoned p.pa e.size = true → exec (.windowContribution c) s =
      .next (s.entryFault c e (trapAt .poison e.addr.toNat))) ∧
    (s.d.gone p.pa e.size = false → s.d.memPoisoned p.pa e.size = false → s.d.locked p.pa e.size = false →
    ∃ t, exec (.windowContribution c) s = .next t ∧ (t.core c).q.at_ = ((s.core c).q.at_.filter fun x => x.seq != e.seq) ∧
      t.d.mem = s.d.mem ∧ (∃ w ∈ t.d.locs, w.loc = p.pa ∧ (c.val, e.seq) ∈ w.unmerged) ∧
      (∀ b, (t.core b).r = (s.core b).r ∧ (t.core b).m = (s.core b).m))) ∧
  (∀ (loc : Nat) (s : State) (w : Window) (m : W64), s.d.locs.find? (fun w => w.loc == loc) = some w → w.parts ≠ [] →
    let vs := (sortBy Nat.ble w.parts).map fun p => (w.partials.find? fun x => x.1 == p).map Prod.snd
    (∀ v ∈ vs, v ≠ none) → mergeTree (fun a b => redApply w.op w.w64 a b 0) 64 (vs.filterMap id) = some m →
    let n := if w.w64 then 8 else 4
    let old := BitVec.ofNat 64 (natOf (s.d.readMem ⟨s.d.keyOf w.key, none⟩ loc n))
    s.d.locked loc n = false →
    (s.d.gone loc n = true ∨ s.d.memPoisoned loc n = true → ∃ t, exec (.windowRoundMerge loc) s = .next t ∧ t.d.mem = s.d.mem ∧
      t.cores = s.cores) ∧
    (s.d.gone loc n = false → s.d.memPoisoned loc n = false →
      ∃ t, exec (.windowRoundMerge loc) s = .next t ∧ t.d.mem.read loc n = bytesOf n (redApply w.op w.w64 old m 0).toNat ∧
        (∀ i, i < loc ∨ loc + n ≤ i → s.d.pending i = false → t.d.mem.get i = s.d.mem.get i) ∧
        ∀ b, (t.core b).r = (s.core b).r))


/-! ### Copies and shuffles (09) -/

/-- R86, R213 to R216: a copy or fill enters the copy queue with its captured operands and the open batch; in mode 01 its destination
lines are empty from then on. cp.close closes the open batch where a copy of it is not complete, and else only arrives. -/
def Sys2Proof.Stated.CopiesEnterTheirQueue : Prop :=
  (∀ x ∈ ([(.cpCopy, .cpCopy), (.cpFill, .cpFill)] : List ((CpOp → Instr) × CpTag)), ∀ (o : CpOp) (s : State),
    Issues (.cp x.2 o) s →
    let k := s.me
    let dst := k.readS o.db + o.doff.signExtend 64 * 128
    ∃ (t : State) (e : Copy), exec (x.1 o) s = .next t ∧ t.me.q.cp = k.q.cp ++ [e] ∧ e.fill = (x.2 == .cpFill) ∧ e.mode = o.mode ∧
      e.dsp = o.dsp ∧ e.dst = dst ∧ e.ssp = o.ssp ∧ e.src = k.readS o.sb ∧ e.n = k.readS o.len ∧ e.prog = 0 ∧ e.begun = false ∧
      e.batch = k.q.openBatch ∧ e.fault = none ∧ e.arr = o.gd.arr ∧ t.d = s.d ∧
      (∀ c, (t.core c).r = (s.core c).r ∧ (t.core c).w = (s.core c).w ∧ (t.core c).m.spad = (s.core c).m.spad) ∧
      (o.mode ≠ .fe → ∀ c, (t.core c).m = (s.core c).m) ∧
      (o.mode = .fe → ∀ l ∈ (feLines s.cur o.dsp dst.toNat (k.readS o.len).toNat).2,
        l ∈ (t.core (feLines s.cur o.dsp dst.toNat (k.readS o.len).toNat).1).m.empty)) ∧
  (∀ (o : CpOp) (s : State), Issues (.cp .cpClose o) s →
    ((∃ e ∈ s.me.q.cp, e.batch = s.me.q.openBatch) → ∃ (t : State) (e : Close), exec (.cpClose o) s = .next t ∧
      t.me.q.closes = s.me.q.closes ++ [e] ∧ e.batch = s.me.q.openBatch ∧ e.arr = o.gd.arr ∧ t.me.q.cp = s.me.q.cp ∧
      (∀ e ∈ s.me.q.cp, e.batch ≠ t.me.q.openBatch) ∧ t.me.r = s.me.r ∧ t.me.m = s.me.m ∧ t.d = s.d) ∧
    ((∀ e ∈ s.me.q.cp, e.batch ≠ s.me.q.openBatch) → exec (.cpClose o) s = .next (s.modMe fun k => k.arriveNow (.cp .cpClose o))))

namespace Sys2Proof.Stated

/-- The core runs at a level: what an engine does for an operation is checked at the level of its issue (R252). -/
def AtLevel (c : CoreId) (pl : BitVec 2) (s : State) : State := s.modCore c fun k => k.modW fun w => { w with pl := pl }

end Sys2Proof.Stated

/-- R213 to R216, R252, R270, R271, R406: the engine begins the first copy with its checks, and one of no bytes is complete at once; then
it moves pieces of 128 bytes of the destination, each in units of 16 bytes read and written one by one, a fill the pattern's, at the
level of the copy's issue; reads may run ahead of the writes (a move of the environment, log 5). After the last unit of a piece its lines are full in mode 01, and the copy goes on or is complete. A fault
that the piece meets is found before its first unit is read and stays with the copy, which stands at the piece. -/
def Sys2Proof.Stated.CopiesMoveInPieces : Prop :=
  (∀ (c : CoreId) (s : State) (x : Copy) (xs : List Copy), (s.core c).q.cp = x :: xs → x.fault = none →
    (x.begun = false →
      (∀ t, s.copyCheck c x = some t → exec (.copyBegin c) s = .next (s.modCore c fun k => k.copyFault x t)) ∧
      (s.copyCheck c x = none →
        (x.n = 0 → exec (.copyBegin c) s = .next (s.modCore c fun k => k.copyDone x)) ∧
        (x.n ≠ 0 → ∃ t, exec (.copyBegin c) s = .next t ∧ (t.core c).q.cp =
          (x :: xs).map (fun y => if y.seq = x.seq then { y with begun := true } else y) ∧ t.d = s.d ∧ (t.core c).m = (s.core c).m))) ∧
    (x.begun = true →
      let v := AtLevel c x.pl s
      let back := fun (u : State) => AtLevel c (s.core c).w.pl u
      let n := min 128 (x.n.toNat - x.prog)
      let sa := x.src.toNat + x.prog
      let da := x.dst.toNat + x.prog
      let i := x.wrote.length + x.buf.length
      let kinds := (if x.dsp = .glob then v.kindsIn c 2 da n else []) ++ (if x.fill = false ∧ x.ssp = .glob then v.kindsIn c 2 sa n else [])
      let fails := fun (t : Trap) => back (v.modCore c fun k => k.copyFault x t)
      let holds := fun (buf : List (List Byte × Bool)) (wrote : List Bool) (u : State) =>
        back (u.modCore c fun k => k.modQ fun q => { q with
          cp := q.cp.map fun y => if y.seq = x.seq then { y with buf := buf, wrote := wrote } else y })
      v.ordered c 2 x.seq kinds false false = true →
      let reads := fun (u : State) => (x.buf = [] → exec (.copyPieceWrite c) s = .next u) ∧ copyReadAhead c s = .next u
      (∀ t : Trap, v.pieceFault c x = some t → exec (.copyPieceWrite c) s = .next (fails t) ∧ copyReadAhead c s = .next (fails t)) ∧
      (v.pieceFault c x = none → 16 * i < n →
        (x.fill = true →
          let bs := (List.range 16).map fun j => BitVec.ofNat 8 (x.src.toNat / 2 ^ (8 * ((x.prog + 16 * i + j) % 8)))
          reads (holds (x.buf ++ [(bs, x.poison)]) x.wrote v)) ∧
        (x.fill = false →
          (∀ bs p, v.get c (some 1) x.ssp (sa + 16 * i) 16 = .ok bs p →
            reads (holds (x.buf ++ [(bs, p)]) x.wrote (v.noteRead c x.ipc x.ssp (sa + 16 * i) 16))) ∧
          (∀ t, v.get c (some 1) x.ssp (sa + 16 * i) 16 = .bad t → reads (fails t)))) ∧
      (v.pieceFault c x = none → ∀ bs p rest, x.buf = (bs, p) :: rest →
        let at_ := da + 16 * x.wrote.length
        let places := v.rangePlaces c x.dsp at_ 16
        let from_ := v.rangePlaces c x.ssp x.src.toNat x.n.toNat
        let ws := if x.fill then bs else freeOverlap v.fresh (x.prog + 16 * x.wrote.length) from_ places bs
        let y := { x with buf := rest, wrote := x.wrote ++ [p] }
        ((∀ i p, placeAt places i = some p → inPlaces from_ p = false) → ws = bs) ∧
        (∀ t, v.put c (some 1) x.ipc x.dsp at_ ws p = .bad t → exec (.copyPieceWrite c) s = .next (fails t)) ∧
        (∀ u, v.put c (some 1) x.ipc x.dsp at_ ws p = .ok u →
          let u := u.cleanBlock c x.dsp da y.wrote
          (y.wrote.length = (n + 15) / 16 → exec (.copyPieceWrite c) s = .next (back (u.pieceDone c y))) ∧
          (y.wrote.length ≠ (n + 15) / 16 → exec (.copyPieceWrite c) s = .next (holds rest y.wrote u)))))) ∧
  (∀ (c : CoreId) (s : State) (x : Copy),
    let n := min 128 (x.n.toNat - x.prog)
    let da := x.dst.toNat + x.prog
    (x.buf ≠ [] ∨ x.wrote ≠ [] → s.pieceFault c x = none) ∧
    (x.buf = [] → x.wrote = [] →
      (∀ t, x.fill = false → s.get c (some 1) x.ssp (x.src.toNat + x.prog) n = .bad t → s.pieceFault c x = some t) ∧
      (x.fill = true ∨ (∀ t, s.get c (some 1) x.ssp (x.src.toNat + x.prog) n ≠ .bad t) →
        (∀ t, s.put c (some 1) x.ipc x.dsp da (List.replicate n 0) false = .bad t → s.pieceFault c x = some t) ∧
        ((∀ t, s.put c (some 1) x.ipc x.dsp da (List.replicate n 0) false ≠ .bad t) → s.pieceFault c x = none))) ∧
    s.pieceDone c x = ((if x.mode = .fe then
        s.modCore (spadOf c x.dsp da).1 fun k => k.mark (linesOf (spadOf c x.dsp da).2 n) true else s).modCore c fun k =>
      if x.n.toNat ≤ x.prog + n then k.copyDone x
      else k.modQ fun q => { q with
        cp := q.cp.map fun y => if y.seq = x.seq then { y with prog := x.prog + n, buf := [], wrote := [] } else y }))

namespace Sys2Proof.Stated

/-- The shuffles (R219). -/
def shuffleRows : List ((CpOp → Instr) × CpTag) :=
  [(.bxTr, .bxTr), (.bxIlv, .bxIlv), (.bxGth, .bxGth), (.bxSct, .bxSct), (.bxBc, .bxBc)]

end Sys2Proof.Stated

/-- R219 to R224, R252: a shuffle enters its queue with its captured words; the engine meets its elements in order, at the level of its
issue, and a shuffle whose elements are all met writes the rest of its mask, and free values over its destination where the ranges
overlap, is freed and arrives. A range of no bytes overlaps nothing. -/
def Sys2Proof.Stated.ShufflesRun : Prop :=
  (∀ x ∈ shuffleRows, ∀ (o : CpOp) (s : State), Issues (.cp x.2 o) s →
    let k := s.me
    ∃ (t : State) (e : Shuf), exec (x.1 o) s = .next t ∧ t = s.modMe (fun k => k.modQ fun q => { q with sh := q.sh ++ [e] }) ∧
      e.tag = x.2 ∧ e.dsp = o.dsp ∧ e.dst = k.readS o.db + o.doff.signExtend 64 * 128 ∧ e.ssp = o.ssp ∧ e.src = k.readS o.sb ∧
      e.shape = k.readS o.len ∧ e.list = (if x.2 = .bxGth ∨ x.2 = .bxSct then k.readS (o.len + 1) else 0) ∧ e.prog = 0 ∧
      e.begun = false ∧ e.fault = none ∧ e.arr = o.gd.arr ∧ e.pl = k.w.pl) ∧
  (∀ (c : CoreId) (s u : State) (x : Shuf) (xs : List Shuf) (h : Shape),
    let l := AtLevel c x.pl s
    (s.core c).q.sh = x :: xs → x.fault = none → shapeOf x = .ok h → l.ordered c 3 x.seq [] false false = true →
    (x.begun = false ∧ l.shufCheck c x = none ∨ x.begun = true) →
    let v := l.modCore c fun k => k.modShuf x.seq fun y => { y with begun := true }
    x.prog < h.total → v.shufElem c { x with begun := true } h = .ok u →
    exec (.shuffleBegin c 1) s = .next (AtLevel c (s.core c).w.pl (u.modCore c fun k =>
      k.modShuf x.seq fun y => { y with prog := x.prog + 1 }))) ∧
  (∀ (c : CoreId) (s : State) (x : Shuf) (xs : List Shuf) (t : Trap),
    let l := AtLevel c x.pl s
    (s.core c).q.sh = x :: xs → x.fault = none → l.ordered c 3 x.seq [] false false = true → x.begun = false →
    l.shufCheck c x = some t → ∀ n, exec (.shuffleBegin c n) s = .next (AtLevel c (s.core c).w.pl
      (l.modCore c fun k => k.modShuf x.seq fun y => { y with fault := some { t with slot := 6 } }))) ∧
  (∀ (c : CoreId) (s : State) (x : Shuf) (xs : List Shuf) (h : Shape),
    (s.core c).q.sh = x :: xs → x.fault = none → x.begun = true → shapeOf x = .ok h → h.total ≤ x.prog →
    let l := AtLevel c x.pl s
    let tail := if x.tag = .bxGth ∨ x.tag = .bxSct then l.maskTail c x h else .ok l
    ∀ v u, tail = .ok v →
      (if v.shufOverlap c x h then v.put c (some 2) x.ipc x.dsp x.dst.toNat (freeBytes v.fresh 0 (h.dst * h.es)) false else .ok v) = .ok u →
      exec (.shuffleComplete c) s = .next (AtLevel c (s.core c).w.pl (u.modCore c fun k =>
        (k.modQ fun q => { q with sh := q.sh.filter fun y => y.seq != x.seq }).arriveLater x.seq x.arr))) ∧
  (∀ (a b : List (Nat × Nat × Nat)), (∀ p ∈ a, p.2.2 = 0) ∨ (∀ p ∈ b, p.2.2 = 0) → placesMeet a b = false)

/-- R221 to R223: element (c, r) of a transposed matrix is element (r, c) of the source; element (n, k) of an interleave is element n of
vector k; a gather takes the element its index names, and zero beyond the table; a scatter puts it there, and nothing beyond; the
index of all ones is skipped; a broadcast takes element 0. -/
def Sys2Proof.Stated.ShuffleElements : Prop :=
  ∀ (h : Shape),
    (∀ r c x, r < h.r → c < h.c →
      ((elemOf .bxTr h (c * h.r + r) x).dst = some (c * h.r + r) ∧ (elemOf .bxTr h (c * h.r + r) x).src = some (r * h.c + c))) ∧
    (∀ n k x, n < h.r → k < h.c →
      ((elemOf .bxIlv h (n * h.c + k) x).dst = some (n * h.c + k) ∧ (elemOf .bxIlv h (n * h.c + k) x).src = some (k * h.r + n))) ∧
    (∀ i x, x < h.len → x ≠ 0xFFFFFFFF → elemOf .bxGth h i x = ⟨some i, some x, false, false⟩ ∧
      elemOf .bxSct h i x = ⟨some x, some i, false, false⟩) ∧
    (∀ i x, h.len ≤ x → x ≠ 0xFFFFFFFF → elemOf .bxGth h i x = ⟨some i, none, true, true⟩ ∧
      elemOf .bxSct h i x = ⟨none, none, true, true⟩) ∧
    (∀ i, elemOf .bxGth h i 0xFFFFFFFF = ⟨none, none, false, false⟩ ∧ elemOf .bxSct h i 0xFFFFFFFF = ⟨none, none, false, false⟩) ∧
    (∀ i x, elemOf .bxBc h i x = ⟨some i, some 0, false, false⟩)

/-! ### Barriers and synchronisation (10) -/

namespace Sys2Proof.Stated

/-- The caravan a core acts in. -/
def InCaravan (s : State) (c : CoreId) (id : Nat) (x : Caravan) : Prop := (s.core c).car = some id ∧ s.d.car id = some x

/-- An SY operation that is done in its issue cycle: what it leaves, with its arrival at the end of the cycle (R66, R226). -/
def SyDone (t : SyTag) (o : SyOp) (s : State) : State := s.modMe fun k => k.arriveNow (.sy t o)

/-- An SY operation that holds issue for something (R231). -/
def SyHolds (t : SyTag) (o : SyOp) (h : HoldKind) (s u : State) : Prop :=
  ∃ x : Hold, u = s.modMe (fun k => k.modQ fun q => { q with hold := some x }) ∧ x.kind = h ∧ x.arr = o.gd.arr ∧ x.fault = none ∧
    x.seq = s.me.f.seq + 7 ∧ x.body = s.me.body (.sy t o)

end Sys2Proof.Stated

/-- R226 to R228: an arrival at an object with PEND 0 breaks it, the last one pending reloads PEND from PARTICIPANTS and flips PHASE, any
other takes 1 from PEND; bar.init sets both counts, flips PHASE and clears BROKEN at the end of its cycle; bar.expect adds to PEND,
as far as its 20 bits go (log 94). -/
def Sys2Proof.Stated.BarrierObjects : Prop :=
  (∀ (n m : Nat) (own : Bool) (b : Bar),
    (b.pend = 0 → (Bar.arrive n m own b).broken = true ∧ (Bar.arrive n m own b).pend = 0 ∧ (Bar.arrive n m own b).phase = b.phase) ∧
    (b.pend = 1 → (Bar.arrive n m own b).pend = b.part ∧ (Bar.arrive n m own b).phase = !b.phase ∧
      (Bar.arrive n m own b).broken = b.broken) ∧
    (1 < b.pend → (Bar.arrive n m own b).pend = b.pend - 1 ∧ (Bar.arrive n m own b).phase = b.phase ∧
      (Bar.arrive n m own b).broken = b.broken) ∧ (Bar.arrive n m own b).part = b.part) ∧
  (∀ x ∈ ([(.barInitImm, .barInitImm, true, true), (.barInitReg, .barInitReg, true, false), (.barExpectImm, .barExpectImm, false, true),
      (.barExpectReg, .barExpectReg, false, false)] : List ((SyOp → Instr) × SyTag × Bool × Bool)), ∀ (o : SyOp) (s : State),
    Issues (.sy x.2.1 o) s → ∃ p : Pend, exec (x.1 o) s = .next (s.modMe fun k => k.push p) ∧ p.due = s.me.f.cyc ∧
      p.dest = .bar o.bar.toFin x.2.2.1 ∧ p.val = (if x.2.2.2 then o.imm.setWidth 64 else s.me.readS o.sa).setWidth 1024 ∧
      p.arr = o.gd.arr ∧ p.shift = none ∧ p.flags = 0) ∧
  (∀ (c : CoreId) (s : State) (p : Pend) (id : Nat) (x : Caravan) (b : Fin 16), InCaravan s c id x →
    (p.dest = .bar b true → let y := (s.writeBack c p).bar c b
      y.pend = p.val.toNat ∧ y.part = p.val.toNat ∧ y.phase = (!x.bars[b].phase) ∧ y.broken = false) ∧
    (p.dest = .bar b false → let y := (s.writeBack c p).bar c b
      y.pend = (if 1048575 < x.bars[b].pend + p.val.toNat then x.bars[b].pend else x.bars[b].pend + p.val.toNat) ∧
      y.part = x.bars[b].part ∧ y.phase = x.bars[b].phase ∧ y.broken = x.bars[b].broken)) ∧
  (∀ (o : SyOp) (s : State), Issues (.sy .barArrive o) s → ∃ p : Pend,
    exec (.barArrive o) s = .next (SyDone .barArrive o (s.modMe fun k => k.push p)) ∧ p.due = s.me.f.cyc ∧ p.dest = .none ∧
      p.arr = some o.bar) ∧
  (∀ (c : CoreId) (s : State) (id : Nat) (x : Caravan) (b : Fin 16) (n : Nat), InCaravan s c id x →
    (∀ a, a ≠ c → (s.core a).car ≠ some id) → ownReady (s.core c) = true → (s.core c).q.arr = [(BitVec.ofNat 4 b.val, n)] →
    ∃ t, exec (.barrierArrival id b) s = .next t ∧ (t.core c).q.arr = [] ∧ (t.core c).r = (s.core c).r ∧ t.d.mem = s.d.mem ∧
      let y := Bar.arrive c.val n true x.bars[b]
      (t.bar c b).pend = y.pend ∧ (t.bar c b).part = y.part ∧ (t.bar c b).phase = y.phase ∧ (t.bar c b).broken = y.broken)

/-- R229, R231: bar.wait with PEND 0 passes, else it records PHASE and holds issue until the core sees another; a broken object is
BAR_BROKEN there. An arrival that flips PHASE or breaks the object leaves its core, and every core that has done so, able to see it in the
next cycle. bar.test leaves the object's bits for sA at the end of its cycle. -/
def Sys2Proof.Stated.BarrierWaits : Prop :=
  (∀ (o : SyOp) (s : State), Issues (.sy .barWait o) s →
    let b := s.bar s.cur o.bar.toFin
    (b.pend = 0 → exec (.barWait o) s = .next (SyDone .barWait o (s.acquire s.cur (b.rel.filter fun r => r.mark == (!b.phase).toNat)))) ∧
    (b.pend ≠ 0 → ∃ t, exec (.barWait o) s = .next t ∧
      SyHolds .barWait o (.barWait o.bar.toFin b.phase) (s.unflip s.cur o.bar.toFin) t)) ∧
  (∀ (o : SyOp) (s : State), Issues (.sy .barTest o) s → ∃ p : Pend, exec (.barTest o) s = .next (s.modMe fun k => k.push p) ∧
    p.due = s.me.f.cyc ∧ p.dest = s.me.destS o.sa false ∧ p.shift = none ∧
    let b := s.bar s.cur o.bar.toFin
    p.val = (BitVec.ofNat 64 (b.pend + b.part * 2 ^ 20 + b.phase.toNat * 2 ^ 40 + b.broken.toNat * 2 ^ 41)).setWidth 1024) ∧
  (∀ (c : CoreId) (s : State) (h : Hold) (b : Fin 16) (ph : Bool),
    (s.core c).atBoundary = true → (s.core c).stopPending = false → (s.core c).uiPending = false → s.detNow c = false →
    (s.core c).waiting = some (h, b, ph) →
    ((s.bar c b).broken = true → exec (.barWaitRelease c) s = .next (s.modCore c fun k =>
      k.faultHold h.seq (some ⟨.barBroken, 7, BitVec.ofNat 64 b.val⟩))) ∧
    ((s.bar c b).broken = false → (s.bar c b).phase ≠ ph → ∃ t, exec (.barWaitRelease c) s = .next t ∧
      (t.core c).holds = ((s.core c).holds.filter fun y => y.seq != h.seq) ∧
      (t.core c).f.at_ = .after ∧ (t.core c).f.pc = (s.core c).f.pc ∧ (t.core c).r = (s.core c).r ∧ (t.core c).m = (s.core c).m ∧
      (t.core c).q.arr = (s.core c).q.arr ++ (h.arr.map fun b => (b, h.seq)).toList)) ∧
  (∀ (n m : Nat) (b : Bar), b.pend ≤ 1 → n ∈ (Bar.arrive n m true b).flips ∧
    ∀ a own, a ∈ b.flips → a ∈ (Bar.arrive n m own b).flips)

/-- R217, R231 to R233, R278, R296, R301, R303: sy.fence passes where everything before it is performed, else it holds issue;
sy.qjoin leaves its join; sy.waitb closes the open batch and passes where few enough batches are outstanding; sy.frame sets
SFC to 0; sy.phase opens its descriptor's phase, of the table in force at its level, once its engine's work is done. The readings and choices of log 44, 78 are in
it. -/
def Obligations.FencesFramesAndPhases : Prop :=
  ∀ (o : SyOp) (s : State),
    (Issues (.sy .syFence o) s →
      (s.fenceMet s.cur (s.me.f.seq + 7) o.imm.toNat = true → exec (.syFence o) s = .next (SyDone .syFence o s)) ∧
      (s.fenceMet s.cur (s.me.f.seq + 7) o.imm.toNat = false →
        ∃ t, exec (.syFence o) s = .next t ∧ SyHolds .syFence o (.fence o.imm.toNat) s t)) ∧
    (Issues (.sy .syQjoin o) s → exec (.syQjoin o) s = .next (SyDone .syQjoin o (s.modMe fun k => k.modQ fun q => { q with
      joins := q.joins ++ [⟨k.f.seq + 7, o.imm.setWidth 6, k.f.ipc, k.body (.sy .syQjoin o)⟩] }))) ∧
    (Issues (.sy .syWaitb o) s →
      let u := s.modMe Core.closeBatch
      (State.outstanding u.me ≤ o.imm.toNat → exec (.syWaitb o) s = .next (SyDone .syWaitb o u)) ∧
      (o.imm.toNat < State.outstanding u.me →
        ∃ t, exec (.syWaitb o) s = .next t ∧ SyHolds .syWaitb o (.waitb o.imm.toNat) u t)) ∧
    (Issues (.sy .syFrame o) s →
      exec (.syFrame o) s = .next (SyDone .syFrame o (s.modMe fun k => k.modW fun w => { w with sfc := 0 }))) ∧
    (∀ x, s.me.w.pl = 0 → s.desc s.cur x = decodeDescriptor (s.me.m.cwt.get x)) ∧
    (∀ x f, s.me.w.pl ≠ 0 → s.fnOf s.cur = some f → x < 64 → s.desc s.cur x = decodeDescriptor (s.d.fns[f].scwt.get x)) ∧
    (Issues (.sy .syPhase o) s → ∀ d, s.desc s.cur (o.imm.toNat % 512) = some d →
      (State.engineDone s.me d.eng.toNat (s.me.f.seq + 7) = true → State.phaseClash s.me d = none →
        exec (.syPhase o) s = .next (SyDone .syPhase o (s.modMe fun k =>
          { k with ph := k.ph.set d.eng.toFin ⟨true, BitVec.ofNat 9 (o.imm.toNat % 512), d.rd, d.wr⟩ }))) ∧
      (State.engineDone s.me d.eng.toNat (s.me.f.seq + 7) = false →
        ∃ t, exec (.syPhase o) s = .next t ∧ SyHolds .syPhase o (.drained [d.eng.toNat]) s t))

/-- R235 to R240, R366, R378: an operation that ends the run holds issue until the run's work is complete; sy.spawn makes a
runnable record at a[47:0] with s0 to s4 and the stream's stage plus its own, where its pool has room; sy.ireg opens a region
with its restart point and write set; sy.iend commits the held stores in order and closes it, or holds until those that cannot be written have left their queue; sy.event sets or clears a flag
of the caravan. The readings and choices of log 58 are in it. -/
def Obligations.RunsRecordsAndRegions : Prop :=
  (∀ x ∈ ([(.sySuspend, .sySuspend), (.sySuspendEv, .sySuspendEv), (.sySuspendFe, .sySuspendFe), (.syYield, .syYield),
      (.syYieldPark, .syYieldPark), (.syRetire, .syRetire)] : List ((SyOp → Instr) × SyTag)), ∀ (o : SyOp) (s : State),
    Issues (.sy x.2 o) s → ∃ t, exec (x.1 o) s = .next t ∧ SyHolds x.2 o (.endRun x.2 (s.me.readS o.sa)) s t) ∧
  (∀ (o : SyOp) (s : State) (r : CRec), Issues (.sy .sySpawn o) s → s.recRun s.cur = some r →
    let clu := (clusOf s.cur).val
    (s.d.poolCount clu (r.stage + o.imm.toNat % 2) < 4096 → ∃ (t : State) (n : CRec), exec (.sySpawn o) s = .next (SyDone .sySpawn o t) ∧
      t.d.recs = s.d.recs ++ [n] ∧ n.pc = s.me.readS o.sa &&& 0xFFFFFFFFFFFF ∧ n.st = .runnable ∧ n.hclu = clu ∧ n.hpos = posOf s.cur ∧
      n.stage = r.stage + o.imm.toNat % 2 ∧ (∀ i : Fin 5, n.s[i] = s.me.r.s[i.val]) ∧ n.car = r.car ∧ n.ctx = r.ctx ∧
      n.d = r.d ∧ n.c = r.c ∧ n.k = r.k ∧ t.cores = s.cores ∧ t.d.mem = s.d.mem) ∧
    (4096 ≤ s.d.poolCount clu (r.stage + o.imm.toNat % 2) → ∃ t, exec (.sySpawn o) s = .next t ∧
      SyHolds .sySpawn o (.spawn (s.me.readS o.sa) (o.imm.toNat % 2) s.me.firstFive) s t)) ∧
  (∀ (o : SyOp) (s : State), Issues (.sy .syIreg o) s → ∀ d, s.desc s.cur (o.imm.toNat % 512) = some d →
    ∃ g : Region, exec (.syIreg o) s = .next (SyDone .syIreg o (s.modMe fun k => { k with rg := g })) ∧ g.opened = true ∧ g.wr = d.wr ∧
      g.held = [] ∧ g.unbuf = false ∧ g.pc = s.me.f.ipc ∧ (∀ i : Fin 5, g.s[i] = s.me.r.s[i.val])) ∧
  (∀ (o : SyOp) (s : State), Issues (.sy .syIend o) s →
    (∀ u, s.commitRegion s.cur = (u, none) →
      exec (.syIend o) s = .next (SyDone .syIend o (u.modMe fun k => { k with rg := .reset }))) ∧
    (∀ u x, s.commitRegion s.cur = (u, some x) →
      ∃ t, exec (.syIend o) s = .next t ∧ SyHolds .syIend o .iend u t) ∧
    (∀ h, s.me.rg.held = [h] → h.space = .loc ∨ h.space = .clu → let w := spadOf s.cur h.space h.addr.toNat
      ((s.commitRegion s.cur).1.core w.1).m.spad.read w.2 h.bytes.length = h.bytes)) ∧
  (∀ (o : SyOp) (s : State) (id : Nat) (x : Caravan), Issues (.sy .syEvent o) s → InCaravan s s.cur id x →
    let a := s.me.readS o.sa
    ∃ t y, exec (.syEvent o) s = .next (SyDone .syEvent o t) ∧ t.d.car id = some y ∧ y.bars = x.bars ∧
      (∀ n : Fin 1024, y.evs.getLsbD n.val = if n.val = a.toNat % 1024 then !a.getLsbD 63 else x.evs.getLsbD n.val) ∧
      t.cores = s.cores ∧ t.d.mem = s.d.mem)

namespace Sys2Proof.Stated

/-- What ends a run leaves of its record (R235, R236): its place, s0 to s4 and its next bundle, with a state that a test says. -/
def Left (c : CoreId) (k : Core) (r : CRec) (st : RecSt) (wait : Wait) : Prop :=
  r.pc = k.f.pc &&& 0xFFFFFFFFFFFF ∧ (∀ i : Fin 5, r.s[i] = k.r.s[i.val]) ∧ r.hclu = (clusOf c).val ∧ r.hpos = posOf c ∧
  r.st = st ∧ r.wait = wait

/-- The active half of a core's matrix program store is the staging half (R178); poison goes with the words (R404). -/
def swapped (s : State) (c : CoreId) : State :=
  s.modCore c fun k => k.modMx fun m => { m with ent := m.sent, mic := m.smic, entP := m.sentP, micP := m.smicP }

end Sys2Proof.Stated

/-- R178, R231, R235, R236, R239, R293, R358, R366: mps.swap exchanges the halves of the matrix program store, at once where no call is open and the
staging half is valid; a hold whose condition holds ends at the end of its cycle, with what it held for done, and issue goes on; at the end of a run a yielding record is runnable
and a suspending one waits on its barrier where PEND is not 0, a retiring one is gone, and the core runs nothing. So SY_HOLD_END (syHoldEnd) completes for every hold whose condition holds, and mps.swap
(mpsSwap) for every valid staging half. The readings
and choices of log 58 are in it. -/
def Obligations.HoldsEnd : Prop :=
  (∀ (o : SyOp) (s : State), Issues (.sy .mpsSwap o) s →
    (s.me.mx.q = [] → storeFails s.me.mx.sent s.me.mx.smic = none → exec (.mpsSwap o) s = .next (SyDone .mpsSwap o (swapped s s.cur))) ∧
    (s.me.mx.q = [] → ∀ d, storeFails s.me.mx.sent s.me.mx.smic = some d → exec (.mpsSwap o) s =
      .next (s.stopSup s.cur ⟨.encoding, 7, BitVec.ofNat 64 d⟩ true s.me.f.ipc)) ∧
    (s.me.mx.q ≠ [] → ∃ t, exec (.mpsSwap o) s = .next t ∧ SyHolds .mpsSwap o .mpsSwap s t)) ∧
  (∀ (c : CoreId) (s : State) (h : Hold), HoldOver c h s →
    (∃ t, exec (.syHoldEnd c) s = .next t) ∧
    (∀ n, h.kind = .fence n ∨ h.kind = .waitb n → exec (.syHoldEnd c) s = .next (s.endHold c h)) ∧
    (let t := s.endHold c h
     (t.core c).holds = [] ∧ (t.core c).q.arr = (s.core c).q.arr ++ (h.arr.map fun b => (b, h.seq)).toList ∧
     (t.core c).r = (s.core c).r ∧ (t.core c).f.pc = (s.core c).f.pc ∧ (t.core c).m = (s.core c).m ∧ t.d.mem = s.d.mem) ∧
    (∀ es, h.kind = .drained es → ∀ k, s.openPhase c (h.sy.imm.toNat % 512) = .inl k →
      exec (.syHoldEnd c) s = .next ((s.setCore c k).endHold c h)) ∧
    (h.kind = .mpsSwap → storeFails (s.core c).mx.sent (s.core c).mx.smic = none →
      exec (.syHoldEnd c) s = .next ((swapped s c).endHold c h)) ∧
    (∀ pc stage ss, h.kind = .spawn pc stage ss → exec (.syHoldEnd c) s = .next ((s.spawn c pc stage ss).endHold c h)) ∧
    (h.kind = .mpsSwap → ∀ d, storeFails (s.core c).mx.sent (s.core c).mx.smic = some d →
      exec (.syHoldEnd c) s = .next (Cut c h (s.core c).f.hcyc (s.stopSup c ⟨.encoding, 7, BitVec.ofNat 64 d⟩ true h.ipc))) ∧
    (h.kind = .iend → exec (.syHoldEnd c) s = .next ((s.modCore c fun k => { k with rg := .reset }).endHold c h)) ∧
    (h.kind = .restart → exec (.syHoldEnd c) s = .next (((s.sampleHold c).nextCycle c).restartRegion c)) ∧
    (∀ a n, h.kind = .resume a n →
      (∀ t, s.restore c a n h.ipc = (t, none) → exec (.syHoldEnd c) s = .next (Cut c h (s.core c).f.hcyc t)) ∧
      (∀ t rs, s.restore c a n h.ipc = (t, some rs) → exec (.syHoldEnd c) s = .next (
        let t := (((t.modD fun d => d.sample (clusOf c) 2 none [(s.core c).f.hcyc]).modCore c fun k =>
          k.arriveLater h.seq h.arr).maskFaults c).freshWait c
        let t := rs.foldl (fun (t : State) r => t.reissueSy c r) t
        (t.retrySeif (t.core c).w.ctxid).postSeif)))) ∧
  (∀ (c : CoreId) (s : State) (t : SyTag) (o : SyOp) (a : W64) (id : Nat) (r : CRec),
    (s.core c).run = some id → s.d.crec id = some r → (s.core c).sup = false →
    let u := s.leave c t o a
    (u.core c).run = none ∧ (u.core c).r.xv = 0 ∧ (u.core c).r.s = (s.core c).r.s ∧ (u.core c).q.hold = none ∧ u.d.mem = s.d.mem ∧
    (t = .syRetire → ∀ x ∈ u.d.recs, x.id ≠ id) ∧
    (t = .syYield → ∃ x, u.d.crec id = some x ∧ Left c (s.core c) x .runnable .none) ∧
    (t = .sySuspend → ∃ x, u.d.crec id = some x ∧
      ((s.bar c o.bar.toFin).pend ≠ 0 → Left c (s.core c) x .waiting (.bar o.bar.toFin (s.bar c o.bar.toFin).phase)) ∧
      ((s.bar c o.bar.toFin).pend = 0 → Left c (s.core c) x .runnable .none)))


/-! ### Layout changes (11) -/

/-- R241, R259, R262 to R266, R345, R372: layout on a settled handle with its own tag and base only arrives at CBAR, on a
converting one is LAYOUT_FAULT, and else begins a conversion, or leaves the fault of its access; the die's engine then writes the
padding of the new region, converts granule after granule and settles the handle with an arrival at CBAR, which is discarded once
the caravan has ended. The fault of a set-aside conversion stops a
core of its context. The refresh of a bank of the weight stores changes nothing but that reads of that bank wait 40 ticks (R250). The
readings and choices of log 32, 56 are in it. -/
def Obligations.LayoutChanges : Prop :=
  (∀ (o : SyOp) (s : State) (h : Handle), s.handle s.cur (o.imm.toNat % 4096) = .ok h → s.me.rg.opened = false →
    h.conv = true ∨ tagOk h.nd h.fmt (o.imm.toNat / 4096) = false →
    s.syIssue s.cur .layout o = some ⟨.layoutFault, 0, BitVec.ofNat 64 (o.imm.toNat % 4096)⟩ ∧ ¬ Issues (.sy .layout o) s) ∧
  (∀ (o : SyOp) (s : State) (h : Handle), Issues (.sy .layout o) s → s.layoutLate s.cur o = false →
    let v := s.noteHandle s.cur s.me.f.ipc (o.imm.toNat % 4096)
    v.handle s.cur (o.imm.toNat % 4096) = .ok h →
    let a := s.me.readS o.sa
    let tag := o.imm.toNat / 4096
    (h.conv = false → tagOk h.nd h.fmt tag = true →
      (tag = h.tag ∧ a.toNat = h.base → ∃ p : Pend, exec (.layout o) s = .next (SyDone .layout o (v.modMe fun k => k.push p)) ∧
        p.due = s.me.f.cyc ∧ p.dest = .none ∧ p.arr = some h.cbar) ∧
      (¬(tag = h.tag ∧ a.toNat = h.base) → a.toNat % 65536 = 0 →
        (∀ t, v.beginConv s.cur s.me.f.ipc (o.imm.toNat % 4096) h a.toNat tag = .ok t →
          exec (.layout o) s = .next (SyDone .layout o t)) ∧
        (∀ x, v.beginConv s.cur s.me.f.ipc (o.imm.toNat % 4096) h a.toNat tag = .error x → ∃ (t : State) (d : Hold),
          exec (.layout o) s = .next t ∧ t.me.q.hold = some d ∧ d.kind = .layout a ∧ d.fault = some { x with slot := 7 } ∧
          t.me.r = s.me.r ∧ t.me.f = s.me.f ∧ t.d = v.d)))) ∧
  (∀ (o : SyOp) (s : State), Issues (.sy .layout o) s → s.layoutLate s.cur o = true →
    ∃ t, exec (.layout o) s = .next t ∧ SyHolds .layout o (.layout (s.me.readS o.sa)) s t) ∧
  (∀ (h : Handle) (a tag : Nat), a < 2 ^ 64 → tag < 8 →
    (let e := h.begin a tag
     field e 64 64 = a ∧ field e 201 3 = tag ∧ field e 204 2 = 2 ∧ field e 320 32 = 0 ∧ field e 0 64 = field h.raw 0 64 ∧
     field e 198 3 = field h.raw 198 3) ∧
    (h.nbase < 2 ^ 64 → h.ntag < 8 →
      let e := h.settled
      field e 0 64 = h.nbase ∧ field e 198 3 = h.ntag ∧ field e 204 2 = 1 ∧ field e 64 64 = 0 ∧ field e 201 3 = 0)) ∧
  (∀ (die : Fin 4) (s u : State) (v : Conv) (x : Ctx) (raw : List Byte) (p : Bool) (h : Handle),
    pickConv s.d.seif[die] = some v → s.d.ctx v.ctx = some x → s.convGet x v v.entry.toNat 64 = .ok (raw, p, u) →
    handleOf v.entry.toNat (natOf raw) = some h → h.conv = true →
    let goes := fun (t : State) (f : Conv → Option Conv) =>
      t.modD fun d => d.modConv die v fun y => f { y with aside := false, delivered := false, again := false }
    (v.padded = false →
      (∀ t, s.convPuts x v h.padding = .ok t →
        exec (.granuleStep die) s = .next (goes t fun y => some { y with padded := true })) ∧
      (∀ t, s.convPuts x v h.padding = .error (.bad t) → exec (.granuleStep die) s = .next (s.setAside die v t))) ∧
    (v.padded = true → v.g < h.grid.2.2 →
      (∀ t, s.granule x v h = .ok t → exec (.granuleStep die) s = .next (goes t fun y => some { y with g := v.g + 1 })) ∧
      (∀ t, s.granule x v h = .error (.bad t) →
        exec (.granuleStep die) s = .next ((s.smear x v h (h.elements v.g)).setAside die v t))) ∧
    (v.padded = true → h.grid.2.2 ≤ v.g → ∀ t, s.convPut x v h.entry (bytesOf 64 h.settled) false = .ok t →
      (∀ y, t.d.convCar v = some y → exec (.granuleStep die) s =
        .next (goes (t.modD fun d => d.modBar y.id h.cbar.toFin (Bar.arrive 320 0 false)) fun _ => none)) ∧
      (t.d.convCar v = none → exec (.granuleStep die) s = .next (goes t fun _ => none)))) ∧
  (∀ (c : CoreId) (s : State) (h a : W64), (s.core c).seif = some (h, a) → (s.core c).atBoundary = true → (s.core c).w.pl = 0 →
    (s.core c).firstFault = none →
    exec (.seifFaultDelivery c) s = .next ((((s.modD fun d => { d with seif := d.seif.map fun vs => vs.map fun v =>
      if v.ctx = (s.core c).w.ctxid ∧ v.h = h.toNat ∧ v.addr = a ∧ v.aside then { v with delivered := true } else v }).stopUser c
        ⟨.layoutFault, 0, h⟩ false (s.core c).f.pc none (s.idleOwed c) a)).postSeif)) ∧
  (∀ (b : Fin 64) (s : State), s.d.refresh.toNat % 65536 = 1024 * b.val → exec (.weightStoreRefresh b) s = .next s ∧
    ∀ off, off / 16384 % 64 = b.val → s.d.wsWait off = 40)

/-! ### User interrupts and the return from a stop (05, 17) -/

/-- R133, R136, R138, R350: a held user interrupt is delivered at a boundary: lost with UILOST where UIV is 0, else the
kernel's pipelines drain into the snapshot bank, a frame with the next stored bundle's address is pushed, UIS takes it, UIH is 1 and
fetch starts at UIV; the kernel's hold, its owed idle cycles and the unissued bundle of a KIND 7 record wait. uiret starts the next held
one, or pops the frame, and with the end of that cycle the kernel goes on with what waited, UIH 0. The readings and
choices of log 38, 39 are in it. -/
def Obligations.UserInterrupts : Prop :=
  (∀ (c : CoreId) (s : State) (u : W64) (us : List W64),
    let k := s.core c
    k.q.ui = u :: us → k.atBoundary = true → k.stopPending = false → k.w.pl = 0 → k.w.uih = false →
    (k.w.uiv = 0 → exec (.userInterruptDelivery c) s = .next (s.modCore c fun k =>
      (k.modQ fun q => { q with ui := us }).modW fun w => { w with flags := w.flags ||| flagUilost })) ∧
    (k.w.uiv ≠ 0 → k.w.ovp = k.w.ovb → k.w.flo.toNat + 16 ≤ k.w.fsp.toNat →
      ∃ t, exec (.userInterruptDelivery c) s = .next t ∧ t.d = (s.sampleCut c).d ∧ (∀ a, a ≠ c → t.core a = s.core a) ∧
        let j := t.core c
        j.w = { k.w with uis := u.setWidth 51, uih := true, fsp := k.w.fsp - 16 } ∧ j.r = k.r ∧ j.f.pc = k.w.uiv.setWidth 64 ∧
        j.f.hpeb = 0 ∧ j.f.peb = k.f.peb ∧ j.q.ui = us ∧ j.q.slb = k.q.slb ++ k.q.pend ∧ j.q.pend = [] ∧ j.q.ld = k.q.ld ∧
        j.q.khold = k.q.hold ∧ j.q.hold = none ∧ j.f.kidle = some (s.idleOwed c) ∧ j.f.next = none ∧
        j.f.knext = k.f.next.map (fun e => (e, k.f.pc)) ∧
        j.m.spad.read (k.w.fsp.toNat - 16) 16 = bytesOf 16 ((if k.f.next.isSome then k.f.nextNpc else k.f.pc).toNat % 2 ^ 48))) ∧
  (∀ (o : AluOp) (s : State), Issues (.alu .uiret o) s →
    let k := s.me
    (∀ u us, k.q.ui = u :: us → ∃ t, exec (.uiret o) s = .next t ∧ t.me.w = { k.w with uis := u.setWidth 51, uih := true } ∧
      t.me.f = { k.f with hpeb := 0, pc := k.w.uiv.setWidth 64, extra := 3 } ∧ t.me.q.ui = us ∧ t.me.r = k.r ∧ t.d = s.d) ∧
    (k.q.ui = [] → ¬ k.w.ovb < k.w.ovp → k.w.fsp.toNat + 16 ≤ k.w.fhi.toNat →
      ∃ t, exec (.uiret o) s = .next t ∧ t.me.w = { k.w with fsp := k.w.fsp + 16 } ∧
        t.me.f = { k.f with leave := some (BitVec.ofNat 64 (natOf (k.m.spad.read k.w.fsp.toNat 8) % 2 ^ 48)) } ∧
        t.me.r = k.r ∧ t.me.m = k.m ∧ t.d = s.d) ∧
    (k.q.ui = [] → k.w.ovb < k.w.ovp → ∃ (t : State) (e : QEnt), exec (.uiret o) s = .next t ∧ t.me.q.ld = k.q.ld ++ [e] ∧
      e.kind = .pop ∧ e.addr = k.w.ovp - 16 ∧ e.land = some (k.f.cyc + 2) ∧ t.me.w = k.w ∧ t.me.r = k.r ∧ t.me.m = k.m ∧ t.d = s.d)) ∧
  (∀ (c : CoreId) (s : State) (a : W64), (s.core c).f.leave = some a →
    let k := s.core c
    let j := (s.nextCycle c).core c
    j.w.uih = false ∧ j.f.pc = (k.f.knext.map Prod.snd).getD a ∧ j.f.next = k.f.knext.map Prod.fst ∧ j.f.nextNpc = a ∧
    j.f.fixed = k.f.kidle.map (· + 3) ∧ j.f.leave = none ∧ j.f.cyc = k.f.cyc + 1 ∧ j.q.hold = k.q.khold.orElse (fun _ => k.q.hold) ∧
    j.q.khold = none ∧ j.r = k.r ∧ j.m = k.m)

/-- R343, R345, R347, R349, R367 to R369: the first fault of a core's operations stops a user stream at its boundary, and is a cause of a
supervisor stream there; an expired slice and a hold of the context stop a stream with PREEMPT, IREG_OVERFLOW in a region that has
overflowed, or begin the restart of its region; a timed-out access has FABRIC_TIMEOUT. -/
def Sys2Proof.Stated.StopsAreTaken : Prop :=
  ∀ (c : CoreId) (s : State),
    let k := s.core c
    (∀ n t, k.w.pl = 0 → k.atBoundary = true → k.firstFault = some (n, t) → k.f.brk = none →
      exec (.executionFaultStop c) s = .next (s.trap c t true k.f.pc none (s.idleOwed c))) ∧
    (∀ n t, k.w.pl ≠ 0 → k.atBoundary = true → k.firstFault = some (n, t) →
      (k.holds.any (fun h => h.seq == n) = false →
        exec (.supervisorCause c) s = .next (((s.modCore c fun k => k.dropFaulted n).stopSup c t true (k.causePc n)).thaw c)) ∧
      (k.holds.any (fun h => h.seq == n) = true →
        exec (.supervisorCause c) s =
          .next ((((s.sampleHold c).modCore c fun k => k.dropFaulted n).stopSup c t true (k.causePc n)).thaw c))) ∧
    (k.atBoundary = true → k.w.pl = 0 → k.firstFault = none → k.seif = none → k.restartWaits = false →
      let stop := fun (x : Cause) => s.trap c ⟨x, 0, 0⟩ false k.f.pc none (s.idleOwed c)
      (k.expired = true →
        (k.rg.opened = false → exec (.sliceExpiry c) s = .next (stop .preempt)) ∧
        (k.rg.opened = true → k.rg.unbuf = true → exec (.sliceExpiry c) s = .next (stop .iregOverflow)) ∧
        (k.rg.opened = true → k.rg.unbuf = false → ∃ (t : State) (h : Hold), exec (.sliceExpiry c) s = .next t ∧ h.kind = .restart ∧
          (t.core c).q = { k.q with hold := some h } ∧ (t.core c).f = { k.f with held := false, hcyc := 0, next := none } ∧
          (t.core c).expired = false ∧ (t.core c).r = k.r ∧ t.d = (s.sampleCut c).d)) ∧
      (k.preempt = true →
        (k.rg.opened = false ∨ k.rg.unbuf = true → exec (.preempt c) s = .next (stop .preempt)) ∧
        (k.rg.opened = true → k.rg.unbuf = false → ∃ (t : State) (h : Hold), exec (.preempt c) s = .next t ∧ h.kind = .restart ∧
          (t.core c).q = { k.q with hold := some h } ∧ (t.core c).f = { k.f with held := false, hcyc := 0, next := none } ∧
          (t.core c).preempt = false ∧ (t.core c).r = k.r ∧ t.d = (s.sampleCut c).d))) ∧
    (∀ e : QEnt, (k.q.ld ++ k.q.st ++ k.q.at_).find? (fun x => x.seq == e.seq && x.fault.isNone && x.ret == .none) = some e →
      (∀ a, s.offEntry c e = some a → exec (.fabricTimeout c e.seq) s =
        .next (s.entryFault c e ⟨.fabricTimeout, 0, BitVec.ofNat 64 a⟩)) ∧
      (e.space = .glob → s.offDevice c e.addr.toNat = true →
        s.offEntry c e = if e.kind = .op .ldPf then none else some e.addr.toNat)) ∧
    (∀ (m : MxCall) (ms : List MxCall) (a : Nat),
      (k.q.ld ++ k.q.st ++ k.q.at_).find? (fun x => x.seq == m.seq && x.fault.isNone && x.ret == .none) = none →
      k.q.cp.find? (fun x => x.seq == m.seq && x.fault.isNone && x.begun) = none → k.mx.q = m :: ms → m.fault = none →
      m.rowFault = none → m.fin = false → s.offCall c m = some a → ∃ t, exec (.fabricTimeout c m.seq) s = .next t ∧
        (t.core c).mx.q = { m with rowFault := some ⟨.fabricTimeout, 0, BitVec.ofNat 64 a⟩ } :: ms ∧ (t.core c).r = k.r ∧ t.d = s.d)

/-- R352, R353, R358, R388, R383, R386, R409: a resume with no records, of a core of the context's function and world whose context area
the context may reach, restores the stopped stream: registers, guards but g0, parameters, shadow set, status words and PEB from the area,
every latch invalid, and the next bundle that of xpc. An area it may not reach is PROTECTION, and one whose data is lost POISON, a cause
of the supervisor stream. A saved PL of 10 or 11 resumes at 01 (log 84). -/
def Sys2Proof.Stated.ResumesRestore : Prop :=
  ∀ (c : CoreId) (s : State) (a ipc : W64) (x : Ctx), s.ctxOf c = some x →
    let ca := (s.core c).w.carea
    let v := s.noteVa c ipc .read a.toNat 0
    (v.d.areaOk x ca.toNat 729088 = false ∨ v.ownCluster c x = false →
      s.restore c a 0 ipc = (v.stopSup c ⟨.protection, 0, BitVec.ofNat 64 ca.toNat⟩ true ipc, none)) ∧
    (v.d.areaOk x ca.toNat 729088 = true → v.ownCluster c x = true → v.d.gone ca.toNat 0x24000 = true →
      s.restore c a 0 ipc = (v.stopSup c ⟨.poison, 0, BitVec.ofNat 64 ca.toNat⟩ true ipc, none)) ∧
    (v.d.areaOk x ca.toNat 729088 = true → v.ownCluster c x = true → v.d.gone ca.toNat 0x24000 = false →
      let u := v.notePa c ipc ca.toNat 0x24000
      let area := u.d.areaRead x ca.toNat 0x24000
      let w := fun (o : Nat) => BitVec.ofNat 64 (natOf ((area.drop o).take 8))
      ∃ t, s.restore c a 0 ipc = (t, some []) ∧
        let j := t.core c
        (∀ i : Fin 64, j.r.s[i] = w (0x200 + 8 * i.val)) ∧ (∀ i : Fin 8, j.r.mp[i] = w (0x500 + 8 * i.val)) ∧
        (∀ i : Fin 16, j.r.sh[i] = w (0x540 + 8 * i.val)) ∧ j.r.g[0] = BitVec.allOnes 128 ∧
        (∀ i : Fin 64, j.r.v[i] = BitVec.ofNat 1024 (natOf ((area.drop (0x2000 + 128 * i.val)).take 128))) ∧
        j.r.xv = 0 ∧ j.w.cause = w 0 &&& 0xFFF ∧ j.w.cdata = w 8 ∧ j.w.xpc = (w 0x10).setWidth 48 ∧
        j.w.pl = (if (w 0x20).toNat % 4 = 0 then 0 else 1) ∧ j.sup = decide ((w 0x20).toNat % 4 ≠ 0) ∧
        j.w.det = (w 0x20).getLsbD 2 ∧ j.w.uih = (w 0x20).getLsbD 3 ∧ j.w.rb = (w 0x28).setWidth 4 ∧ j.w.lc = (w 0x30).setWidth 32 ∧
        j.w.fsp = (w 0x58).setWidth 19 ∧ j.w.ovb = w 0x60 ∧ j.w.ovp = w 0x68 ∧ j.w.htb = w 0x70 &&& 0x0FFFFFFFFFFFFFC1 ∧
        j.w.uiv = (w 0x78).setWidth 48 &&& ~~~1 ∧ j.w.ctxid = x.id ∧ j.w.ptb = x.ptb ∧ j.w.sec = x.sec ∧
        j.f.pc = (w 0x10) &&& 0xFFFFFFFFFFFF ∧ j.f.peb = BitVec.ofNat 512 (natOf ((area.drop 0x100).take 64)) ∧
        t.d.mem = u.d.mem ∧ ∀ b, b ≠ c → t.core b = s.core b)

/-- R349, R350, R352, R355 to R357: a stop leaves one record for each operation that has not retired, in issue order, and last the bundle
that did not issue; the area holds them, their values in the value area and their number in RSTAT. Offsets count from the stop, or for a
kernel that its handler holds from where kernel time stopped. -/
def Sys2Proof.Stated.RecordsAreLeft : Prop :=
  ∀ (c : CoreId) (s : State) (t : Trap) (async : Bool) (pc : W64) (b : Option W512) (idle : Nat) (x : Ctx), (s.core c).w.pl = 0 →
    (s.core c).rg.opened = false → Stoppable c x s → TextApart s (s.core c).w.carea.toNat 0x24000 →
    let k := s.core c
    let area := (s.trap c t async pc b idle).d.areaRead x k.w.carea.toNat 0x24000
    let word := fun (o : Nat) => BitVec.ofNat 64 (natOf ((area.drop o).take 8))
    let now := fun (hnd : Bool) => if k.w.uih && !hnd then k.f.kcyc else k.f.cyc
    ∃ rs left : List Rec, left.Pairwise (fun p q => p.seq ≤ q.seq) ∧
      rs = left ++ ((b.orElse fun _ => k.f.next).toList.map fun e => recOfBundle (k.f.seq + 1) k.f.pc e k.w.uih) ∧
      (word 0xA0).toNat % 2 ^ 16 = rs.length % 2 ^ 16 ∧
      -- the words of the list and the values of the value area
      (∀ i r, i < 1024 → rs[i]? = some r →
        let at_ := fun (j : Nat) => word (0x4000 + 64 * i + 8 * j)
        at_ 1 = r.ipc &&& 0xFFFFFFFFFFFF ∧ at_ 2 = r.body ∧ at_ 3 = r.w3 ∧ at_ 4 = r.w4 ∧ at_ 5 = r.w5 ∧ at_ 6 = r.w6 ∧ at_ 7 = r.w7 ∧
        ∃ o : Nat, at_ 0 = BitVec.ofNat 64 (r.kind + 16 * r.unit + 256 * r.fault + 2 ^ 14 * r.hnd.toNat + 2 ^ 15 * r.done.toNat +
            2 ^ 16 * min r.rem 4095 + 2 ^ 32 * o) ∧
          (r.value = [] → o = 0xFFFFFFFF) ∧
          (r.value ≠ [] → o % 16 = 0 ∧ (o + r.value.length ≤ 65536 → (area.drop (0x14000 + o)).take r.value.length = r.value))) ∧
      -- a record for each operation, with its fields
      (∀ p ∈ k.q.pend ++ k.q.slb, ∃ r ∈ left, r.seq = p.seq ∧ r.kind = 1 ∧ r.unit = p.unit ∧ r.hnd = p.hnd ∧
        r.rem = p.due + 1 - now p.hnd ∧ r.ipc = p.ipc ∧ r.body = p.body ∧ r.w4 = BitVec.ofNat 64 (256 * p.flags.toNat) ∧
        (∀ i w, p.dest = .s i w → r.w3 = BitVec.ofNat 64 (8 * i.val + 2 ^ 15 * w.toNat) ∧ r.w5 = p.val.setWidth 64 ∧ r.value = []) ∧
        (∀ i, p.dest = .v i → r.w3 = BitVec.ofNat 64 (1 + 8 * i.val) ∧
          r.value = bytesOf 128 p.val.toNat ++ bytesOf 16 p.mask.toNat) ∧
        (∀ i, p.dest = .g i → r.w3 = BitVec.ofNat 64 (2 + 8 * i.val) ∧ r.value = bytesOf 16 p.val.toNat ++ bytesOf 16 p.mask.toNat) ∧
        (∀ i, p.dest = .mp i → r.w3 = BitVec.ofNat 64 (3 + 8 * i.val) ∧ r.w5 = p.val.setWidth 64) ∧
        (∀ i j, p.dest = .bank i j → r.w3 = BitVec.ofNat 64 (4 + 8 * i.val + 2 ^ 10 * j.val) ∧
          r.value = bytesOf 128 p.val.toNat ++ bytesOf 16 p.mask.toNat)) ∧
      (∀ v ∈ [(3, k.q.ld), (4, k.q.st), (5, k.q.at_)], ∀ e ∈ v.2, e.kind ≠ .push → e.kind ≠ .pop →
        ∃ r ∈ left, r.seq = e.seq ∧ r.kind = 2 ∧ r.unit = v.1 ∧ r.fault = (e.fault.map fun f => f.cause.code).getD 0 ∧ r.hnd = e.hnd ∧
          r.done = e.done ∧ (∀ l, e.land = some l → r.rem = l + 1 - now e.hnd) ∧ r.ipc = e.ipc ∧ r.body = e.body ∧ r.w3 = e.addr ∧
          r.w4 = BitVec.ofNat 64 e.prog ∧ (e.size ≤ 8 → r.w5 = e.data.setWidth 64 ∧ r.value = []) ∧
          (8 < e.size → r.value = bytesOf 128 e.data.toNat) ∧ (e.kind = .op .atCas → r.w6 = e.cmp)) ∧
      (∀ e ∈ k.q.ld ++ k.q.st, e.kind = .pop ∨ (e.kind = .push ∧ e.body ≠ 0) →
        ∃ r ∈ left, r.seq = e.seq ∧ r.kind = 6 ∧ r.unit = 0 ∧ r.body = e.body ∧ r.ipc = e.ipc) ∧
      (∀ e ∈ k.q.st, e.kind = .push → e.body = 0 → ∃ r ∈ left, ∃ v ∈ left, r.seq = e.seq ∧ v.seq = e.seq ∧ r.kind = 2 ∧ v.kind = 2 ∧
        r.unit = 4 ∧ v.unit = 4 ∧ r.w3 = e.addr ∧ v.w3 = e.addr + 8 ∧ r.w5 = e.data.setWidth 64 ∧ v.w5 = 0) ∧
      (∀ m ∈ k.mx.q, m.fin = false → ∃ r ∈ left, r.seq = m.seq ∧ r.kind = 3 ∧ r.unit = 8 ∧ r.hnd = m.hnd ∧
        r.rem = m.landDue + 1 - now m.hnd ∧ r.ipc = m.ipc ∧ r.body = m.body ∧ r.w3 = 0 ∧ r.w4.getLsbD 40 = true ∧ r.w4 = m.mrow ∧
        r.value = (m.par.toList.map wordBytes).flatten) ∧
      (∀ e ∈ k.q.cp, ∃ r ∈ left, r.seq = e.seq ∧ r.kind = 4 ∧ r.unit = 6 ∧ r.ipc = e.ipc ∧ r.body = e.body ∧ r.w3 = e.dst ∧
        r.w4 = BitVec.ofNat 64 e.prog ∧ r.w5 = e.src ∧ r.w6 = e.n ∧
        r.w7 = BitVec.ofNat 64 (e.batch % 65536 + 65536 * (e.batch == k.q.openBatch).toNat)) ∧
      (∀ e ∈ k.q.sh, ∃ r ∈ left, r.seq = e.seq ∧ r.kind = 5 ∧ r.unit = 7 ∧ r.ipc = e.ipc ∧ r.body = e.body ∧ r.w3 = e.dst ∧
        r.w4 = BitVec.ofNat 64 e.prog ∧ r.w5 = e.src ∧ r.w6 = e.shape ∧ r.w7 = e.list) ∧
      (∀ e ∈ k.q.closes, ∃ r ∈ left, r.seq = e.seq ∧ r.kind = 4 ∧ r.unit = 6 ∧ r.ipc = e.ipc ∧ r.body = e.body ∧
        r.w7 = BitVec.ofNat 64 (e.batch % 65536)) ∧
      (∀ e ∈ k.q.redo, ∃ r ∈ left, r.seq = e.seq ∧ r.kind = 6 ∧ r.unit = 0 ∧ r.ipc = e.ipc ∧ r.body = e.body ∧ r.w5 = e.val) ∧
      (∀ e ∈ k.q.joins, ∃ r ∈ left, r.seq = e.seq ∧ r.kind = 6 ∧ r.unit = 9 ∧ r.ipc = e.ipc ∧ r.body = e.body) ∧
      (∀ h ∈ k.q.hold.toList ++ k.q.shold.toList ++ k.q.khold.toList, h.kind ≠ .restart →
        ∃ r ∈ left, r.seq = h.seq ∧ r.kind = 6 ∧ r.unit = (if h.slot = 0 then 0 else 9) ∧ r.hnd = h.hnd ∧ r.ipc = h.ipc ∧
          r.body = h.body ∧ r.w5 = h.sb ∧ ∀ n ph, h.kind = .barWait n ph → r.done = true ∧ r.w6 = BitVec.ofNat 64 ph.toNat)

/-- R355, R356, R358, R359: a resume whose list of one record passes the checks of R359 puts the operation back where it stood: a
result is written by its mask at the end of cycle r0 + max(REM, 1) − 1 and shifts no latch; a memory operation, a matrix call, a copy
and a shuffle join their queues with their progress, a bar.wait holds for its recorded phase, a load or atomic to land at the end of cycle r0 + REM − 1; a recorded bundle
is the next to issue. A list that fails a check is ENCODING with the index of the record, a cause of the supervisor stream, and
nothing is restored. -/
def Sys2Proof.Stated.RecordsAreReissued : Prop :=
  ∀ (c : CoreId) (s : State) (a ipc : W64) (x : Ctx) (bs : List Byte), s.ctxOf c = some x →
    let ca := (s.core c).w.carea.toNat
    let v := s.noteVa c ipc .read a.toNat 64
    v.readVa c .read 3 a.toNat 64 = .ok bs → v.d.areaOk x ca 729088 = true → v.ownCluster c x = true → v.d.gone ca 0x24000 = false →
    let u := v.notePa c ipc ca 0x24000
    let area := u.d.areaRead x ca 0x24000
    let k := s.core c
    let r0 := k.f.cyc + 1
    let poison := (u.xlate c a.toNat .read).toOption.any fun p => u.d.memPoisoned p.pa 64
    let read := Rec.ofBytes (k.f.seq + 1) (bs.take 64) (area.drop 0x14000) poison
    (read = none → s.restore c a 1 ipc = (v.stopSup c ⟨.encoding, 0, 0⟩ true ipc, none)) ∧
    (∀ r, read = some r → r.ok k = false → s.restore c a 1 ipc = (v.stopSup c ⟨.encoding, 0, 0⟩ true ipc, none)) ∧
    (∀ r, read = some r → r.ok k = true → r.kind ≠ 0 → ∃ t, s.restore c a 1 ipc = (t, some [r]) ∧
      let j := t.core c
      (∀ b, b ≠ c → t.core b = s.core b) ∧
      (r.kind = 1 → r.hnd = true ∨ j.w.uih = false → ∃ p : Pend, j.q.pend = [p] ∧ p.due = r0 + max r.rem 1 - 1 ∧ p.seq = r.seq ∧
        p.shift = none ∧ p.flags = r.w4.extractLsb' 8 5 ∧ p.unit = r.unit ∧ p.body = r.body ∧
        (r.body = 0 → p.dest = destOfWord r.w3.toNat r.hnd)) ∧
      (∀ tag o, r.kind = 2 → r.op k = some (.mem tag o) → ∃ e : QEnt,
        (if r.unit = 3 then j.q.ld else if r.unit = 4 then j.q.st else j.q.at_) = [e] ∧ e.kind = .op tag ∧ e.addr = r.w3 ∧
        e.prog = r.w4.toNat ∧ e.done = r.done ∧ e.ipc = r.ipc ∧ e.body = r.body ∧ e.seq = r.seq ∧
        ((tag.isLd = true ∧ tag ≠ .ldPf) ∨ tag.isAt = true → e.land = some (r0 + r.rem - 1))) ∧
      (∀ o, r.kind = 3 → r.op k = some (.mx o) → ∃ m : MxCall, j.mx.q = [m] ∧ m.comp = r.w4.getLsbD 11 ∧
        m.upc = r.w4.toNat % 2 ^ 11 ∧ m.row = field r.w4.toNat 12 8 ∧ m.landDue = r0 + r.rem - 1 ∧
        (∀ i : Fin 8, m.par[i] = BitVec.ofNat 64 (natOf ((r.value.drop (8 * i.val)).take 8))) ∧
        ∀ b : Fin 16, o.lm ≠ .loadOnly → m.banks.getLsbD b = true → r0 + r.rem ≤ j.mx.bankDue[b]) ∧
      (∀ tag o, r.kind = 4 → tag ≠ .cpClose → r.op k = some (.cp tag o) → ∃ e : Copy, j.q.cp = [e] ∧ e.dst = r.w3 ∧
        e.prog = r.w4.toNat ∧ e.src = r.w5 ∧ e.n = r.w6 ∧ e.batch = r.w7.toNat % 65536 ∧
        (r.w7.getLsbD 16 = true → j.q.openBatch = e.batch) ∧ (r.w7.getLsbD 16 = false → j.q.openBatch ≠ e.batch)) ∧
      (∀ tag o, r.kind = 5 → r.op k = some (.cp tag o) → ∃ e : Shuf, j.q.sh = [e] ∧ e.dst = r.w3 ∧ e.prog = r.w4.toNat ∧
        e.src = r.w5 ∧ e.shape = r.w6 ∧ e.list = r.w7) ∧
      (∀ o, r.kind = 6 → r.op k = some (.sy .barWait o) → r.done = true → r.hnd = true ∨ j.w.uih = false → ∃ h : Hold,
        j.q.hold = some h ∧ h.kind = .barWait o.bar.toFin (r.w6.getLsbD 0) ∧ h.seq = r.seq ∧ h.body = r.body) ∧
      (r.kind = 7 → j.f.next = some (BitVec.ofNat 512 (natOf (r.value.take 64))) ∧ j.f.pc = r.ipc))

/-! ### Launches, selection and the dispatcher's registers (16) -/

namespace Sys2Proof.Stated

/-- The record joins its queue, with its rank among the arrivals of its cycle (R318, R319): the state after the commit. -/
def Committed (q : Fin 64) (rank : Nat) (r : BitVec 1024) (s : State) : State :=
  s.modD fun d => { d with
    order := d.order + 1
    qs := d.qs.set q { d.qs[q] with recs := d.qs[q].recs ++ [⟨r, d.tick, d.order, rank, false⟩] } }

/-- No arrival of this cycle at a point has had a greater rank (R319, R393). -/
def InTurn (point rank : Nat) (s : State) : Prop := (tabGet s.d.ranks point).getD 0 ≤ rank

/-- The arrival of a rank at a point is counted. -/
def Turn (point rank : Nat) (s : State) : State := s.modD fun d => { d with ranks := tabSet d.ranks point rank }

end Sys2Proof.Stated

/-- R318, R319, R321, R326, R400: a record written whole, in two halves or by an Erg message commits at its queue where the
window takes it and R321 does not reject it, the host's of a cycle before those of Erg ports, and those by increasing port; a
rejected one with no completion word sets ERR, and OVF where the queue is full; a second half without a first and any other
discarded write sets ERR of the writer's own queue, else XWIN of the function that owns the queue. Before a function-level reset
completes, its writes are discarded (R433). The readings and choices of log 64, 65, 109 are in it. -/
def Obligations.LaunchRecordsCommit : Prop :=
  ∀ (f : FnId) (q : Fin 64) (r : BitVec 1024) (a b : BitVec 512) (port : Fin 16) (s : State),
    let bad := fun (s : State) => if s.d.qs[q].fn = f then s.modD fun d => d.queueErr q else s.modD fun d => d.report s.d.qs[q].fn 64
    (InTurn q.val 1 s →
      let u := Turn q.val 1 s
      (s.inFlr f = true → exec (.launchRecordWrite f q r) s = .next u ∧ exec (.launchHalfWrite f q false a) s = .next u ∧
        exec (.launchHalfWrite f q true b) s = .next u) ∧
      (s.inFlr f = false → s.takesLaunches f q = true →
        (rejectReason s.d q r = none → exec (.launchRecordWrite f q r) s = .next (Committed q 1 r u)) ∧
        (∀ x, rejectReason s.d q r = some x → field r.toNat 576 64 = 0 →
          ∃ t, exec (.launchRecordWrite f q r) s = .next t ∧ t.d.qs[q].err = true ∧ t.d.qs[q].recs = s.d.qs[q].recs ∧
            t.d.qs[q].ovf = (s.d.qs[q].ovf || decide (32 ≤ s.d.qs[q].recs.length)) ∧ t.d.fns[f].err.getLsbD 0 = true ∧
            t.cores = s.cores ∧ t.d.mem = s.d.mem) ∧
        exec (.launchHalfWrite f q false a) s = .next (u.modD fun d => d.modFn f fun y => { y with halves := tabSet y.halves q.val a }) ∧
        (tabGet s.d.fns[f].halves q.val = none → exec (.launchHalfWrite f q true b) s = .next (bad u)) ∧
        (tabGet s.d.fns[f].halves q.val = some a →
          let t := u.modD fun d => d.modFn f fun y => { y with halves := tabDel y.halves q.val }
          rejectReason t.d q (BitVec.ofNat 1024 (a.toNat + b.toNat * 2 ^ 512)) = none →
          exec (.launchHalfWrite f q true b) s = .next (Committed q 1 (BitVec.ofNat 1024 (a.toNat + b.toNat * 2 ^ 512)) t))) ∧
      (s.inFlr f = false → s.takesLaunches f q = false → exec (.launchRecordWrite f q r) s = .next (bad u) ∧
        exec (.launchHalfWrite f q false a) s = .next (bad u) ∧ exec (.launchHalfWrite f q true b) s = .next (bad u))) ∧
    exec (.badLaunchWrite f q) s = .next (if s.inFlr f then s else bad s) ∧
    (InTurn q.val (port.val + 2) s →
      let u := Turn q.val (port.val + 2) s
      (s.inFlr s.d.qs[q].fn = true → exec (.ergLaunchMessage port q r) s = .next u) ∧
      (s.inFlr s.d.qs[q].fn = false →
        (s.d.qs[q].erg = true → s.takesLaunches s.d.qs[q].fn q = true → rejectReason s.d q r = none →
          exec (.ergLaunchMessage port q r) s = .next (Committed q (port.val + 2) r u)) ∧
        (s.d.qs[q].erg = false → exec (.ergLaunchMessage port q r) s = .next (u.modD fun d => d.queueErr q))))

/-- R320, R324, R326, R327, R331, R339: the next head record leaves its queue and, where its image passes its checks, its
caravan is made; a head record at its age limit goes ahead of all others; a completion word is written through its context, or its
failure reported; the next record of a caravan is made in extent order
where its pool has room; a caravan of which nothing is left ends with its completion word, its interrupt and its resources
freed. The readings and choices of log 60, 65, 66, 108 are in it. -/
def Obligations.CaravansLive : Prop :=
  (∀ (s : State) (q : Fin 64) (cr : Vector Nat 16) (p : Pending) (ps : List Pending) (x : Ctx) (im : KernelImage),
    (∀ q, s.d.headAged q = false) → s.nextAdmit = some (q, cr) → s.d.qs[q].recs = p :: ps → s.admitImage q p.rec_ = .ok (x, im) →
    ∃ (t : State) (v : Caravan), exec .admission s = .next t ∧ t.d.qs[q].recs = ps ∧ t.d.cars = s.d.cars ++ [v] ∧ v.queue = q ∧
      v.rec_ = p.rec_ ∧ v.ctx = x.id ∧ v.slot = s.d.qs[q].slot ∧ v.prio = s.d.qs[q].prio ∧ v.ent = BitVec.ofNat 64 im.ent ∧
      v.det = im.det ∧ v.cwt = im.cwt ∧ v.next = 0 ∧ (∀ b : Fin 16, v.bars[b] = .zero) ∧ v.evs = 0 ∧
      (∀ y ∈ s.d.cars, s.d.cars.length < 65536 → y.id ≠ v.id) ∧
      t.d.mem = (s.noteImage x (field p.rec_.toNat 0 48)).d.mem ∧ t.cores = s.cores) ∧
  (∀ (s : State) (q : Fin 64) (p : Pending) (ps : List Pending), s.d.headAged q = true → s.d.qs[q].recs = p :: ps →
    ∃ t, exec (.admissionEscalation q) s = .next t ∧ t.d.qs[q].recs = { p with aged := true } :: ps ∧ t.cores = s.cores) ∧
  (∀ (s : State) (id : Nat) (x : Caravan), s.d.car id = some x → 0 < x.unexpanded →
    let r := x.record x.next s.d.nid s.d.tick
    s.d.poolCount r.hclu r.stage < 3072 → ∃ t, exec (.recordExpansion id) s = .next t ∧ t.d.recs = s.d.recs ++ [r] ∧
      (t.d.car id).map Caravan.next = some (x.next + 1) ∧ t.cores = s.cores ∧ t.d.mem = s.d.mem) ∧
  (∀ (x : Caravan) (id tick d c k : Nat), c < (extents x.rec_).2.1 → k < (extents x.rec_).2.2 →
    let r := x.record ((d * (extents x.rec_).2.1 + c) * (extents x.rec_).2.2 + k) id tick
    r.d = d ∧ r.c = c ∧ r.k = k ∧ r.pc = x.ent ∧ r.st = .runnable ∧ r.car = x.id ∧ r.ctx = x.ctx ∧ r.ran = false ∧ r.area = none ∧
    (∀ i : Fin 4, r.s[i.val] = x.rec_.extractLsb' (128 + 64 * i.val) 64) ∧
    r.s[4] = x.rec_.extractLsb' 384 64 + BitVec.ofNat 64 (d * 2 ^ 32 + c * 2 ^ 16 + k)) ∧
  (∀ (s : State) (q : Fin 64) (x : Ctx) (a v : Nat), s.d.ctx s.d.qs[q].ctx = some x → x.fn = s.d.qs[q].fn → a ≠ 0 →
    (a % 8 ≠ 0 → s.completeWrite q a v = some (s.modD fun d => (d.queueErr q).report x.fn 2)) ∧
    (∀ t, a % 8 = 0 → s.d.translate x a .write false = .error t →
      s.completeWrite q a v = some (s.modD fun d => (d.queueErr q).report x.fn 2)) ∧
    (∀ p, a % 8 = 0 → s.d.translate x a .write false = .ok p → s.d.gone p.pa 8 = false →
      (s.d.locked p.pa 8 = true → s.completeWrite q a v = none) ∧
      (s.d.locked p.pa 8 = false → TextApart s p.pa 8 → (∀ n, p.key.key ≠ .area n) → ∃ t, s.completeWrite q a v = some t ∧ t.cores = s.cores ∧ t.d.qs = s.d.qs ∧
        t.d.readMem p.key p.pa 8 = bytesOf 8 v))) ∧
  (∀ (s u : State) (id : Nat) (x : Caravan), s.d.car id = some x → s.caravanDone x = true →
    s.completeWrite x.queue (field x.rec_.toNat 576 64) (field x.rec_.toNat 640 64) = some u →
    ∃ t, exec (.caravanEnd id) s = .next t ∧ (∀ y ∈ t.d.cars, y.id ≠ id) ∧ (∀ r ∈ t.d.recs, r.car ≠ id) ∧ t.d.mem = u.d.mem ∧
      (∀ c, (u.core c).car = some id → (t.core c).car = none ∧ (t.core c).run = none) ∧
      (x.rec_.getLsbD 704 = true → t.d.msix = (u.d.qs[x.queue].fn, 0) :: u.d.msix))

/-- R329, R332, R333, R335, R379: an idle core takes the record that R333 selects, and its run starts at the record's pc with
s0 to s4, no latch valid, RB 0 and an empty stack; a core newly bound takes the caravan's control words, its carve-out and its
context; a parked record enters the supervisor at SVEC with cause 0, and with the cdata and xpc of its area where the context reaches
it, s0 to s4 being those of its park (the model's choice, log 68); a waiting record whose condition holds becomes runnable,
and one that has waited its limit is escalated. The readings and choices of log 57, 59, 66, 68, 99, 110, 111 are in it. -/
def Obligations.RecordsRun : Prop :=
  (∀ (c : CoreId) (s : State) (r : CRec) (cr : Vector Nat 16) (x : Caravan) (y : Ctx), s.select c = some (r, cr) →
    s.d.car r.car = some x → s.d.ctx r.ctx = some y → r.area = none → s.canTake c r = true →
    ∃ t, exec (.recordSelection c) s = .next t ∧
      let k := s.core c
      let j := t.core c
      j.f.pc = r.pc ∧ (∀ i : Fin 5, j.r.s[i.val] = r.s[i]) ∧ j.r.xv = 0 ∧ j.r.g[0] = BitVec.allOnes 128 ∧ j.run = some r.id ∧
      j.w.pl = 0 ∧ j.w.uih = false ∧ j.w.rb = 0 ∧ j.w.fsp = j.w.fhi ∧ j.w.ovp = j.w.ovb ∧ j.f.peb = 0 ∧ j.f.at_ = .start ∧
      (r.ran = false → j.w.lc = 0 ∧ j.w.ec = 0) ∧ (k.own = some y.no ∨ s.boundCar c = some r.car → j.r.sh = k.r.sh) ∧
      (s.boundCar c = some r.car → j.w.flo = k.w.flo ∧ j.w.htb = k.w.htb ∧ j.m.cwt = k.m.cwt ∧ j.m.spad = k.m.spad ∧ j.w.sfc = k.w.sfc) ∧
      (s.boundCar c ≠ some r.car → j.car = some r.car ∧ j.m.cwt = x.cwt ∧ j.mx.ent = x.ment ∧ j.mx.mic = x.mmic ∧ j.w.det = x.det ∧
        j.w.ctxid = y.id ∧ j.w.ptb = y.ptb ∧ j.w.sec = y.sec ∧ j.w.flo = x.rec_.extractLsb' 448 19 ∧
        j.w.fhi = x.rec_.extractLsb' 480 19 ∧ j.w.ovb = x.rec_.extractLsb' 512 64 ∧ j.w.sfc = 0 ∧ j.w.uiv = 0 ∧
        (k.lineCar ≠ some r.car ∨ k.lineCtx ≠ some y.id → j.m.empty = []) ∧
        (s.shareOver c = false → k.lineCar = some r.car → k.lineCtx = some y.id → j.m.spad = k.m.spad ∧ j.m.empty = k.m.empty)) ∧
      (∀ n, t.d.crec r.id = some n → n.st = .running) ∧ t.d.mem = s.d.mem ∧ ∀ a, a ≠ c → (t.core a).r = (s.core a).r) ∧
  (∀ (c : CoreId) (s : State) (r : CRec) (cr : Vector Nat 16) (y : Ctx) (area : W64), s.select c = some (r, cr) →
    s.d.ctx r.ctx = some y → r.area = some area → s.canTake c r = true → ∃ t, exec (.parkedRecordSelect c) s = .next t ∧
      let j := t.core c
      let saved := natOf (s.d.areaRead y (area.toNat + 8) 16)
      let reached := s.d.areaOk y area.toNat 729088 = true ∧ s.d.gone area.toNat 0x24000 = false
      j.w.pl = 1 ∧ j.w.cause = 0 ∧ j.w.carea = area ∧ j.w.ctxid = y.id ∧ j.w.ptb = y.ptb ∧ j.w.sec = y.sec ∧
      j.f.pc = s.d.fns[y.fn].svec.setWidth 64 ∧ j.sup = true ∧ j.run = some r.id ∧ j.car = some r.car ∧ j.r.xv = 0 ∧
      j.r.g[0] = BitVec.allOnes 128 ∧ (∀ i : Fin 5, j.r.s[i.val] = r.s[i]) ∧ ((s.core c).own = some y.no → j.r.sh = (s.core c).r.sh) ∧
      (reached → j.w.cdata = BitVec.ofNat 64 saved ∧ j.w.xpc = BitVec.ofNat 48 (saved / 2 ^ 64)) ∧ (¬ reached → t.d.mem = s.d.mem)) ∧
  (∀ (s : State) (id : Nat) (r : CRec), s.d.crec id = some r →
    (r.st = .waiting → s.d.condMet s.lineFull (fun q => s.releaseOpen q.skip q.core q.before) r = true →
      ∃ t, exec (.recordWake id) s = .next t ∧
      t.d.crec id = some { r with st := .runnable, wait := .none, since := s.d.tick } ∧ t.cores = s.cores) ∧
    (r.st = .runnable → r.since + 2 ^ 20 ≤ s.d.tick → ∃ t, exec (.recordEscalation id) s = .next t ∧
      t.d.crec id = some { r with st := .escalated } ∧ t.cores = s.cores))

/-- R317, R318, R336, R337, R341, R395, R412: a queue binding takes its fields from its owner, and a change of PRIO, SLOT or
ERG while the interface is locked sends it to ERROR; a 1 clears OVF or ERR; a model slot write that would break the limits is
refused; a controller serves its next window with the registers as they stand: each class its minimum or all it asks for, and the
rest by weight, all of the window where the classes ask for that much, as in the example of R338; in each window patrol reads one more
unit of the channel, as traffic of no caravan, and leaves its poison (R408); a clear of EN comes before the records of its cycle. The readings and choices of log 14, 69 are in it. -/
def Obligations.DispatcherRegisters : Prop :=
  (∀ (f : FnId) (q : Fin 64) (v : W64) (s : State),
    let x := s.d.qs[q]
    (x.fn ≠ f ∨ s.d.fns[f].iface = .error ∨ s.inFlr f = true → exec (.queueBindingWrite f q v) s = .next s) ∧
    (x.fn = f → s.d.fns[f].iface ≠ .error → s.inFlr f = false → InTurn q.val 0 s → (x.en = false ∨ v.getLsbD 0 = true ∨ x.recs = []) →
      let y := { x with en := v.getLsbD 0, prio := v.extractLsb' 1 3, slot := v.extractLsb' 4 4, erg := v.getLsbD 11,
                        ctx := v.extractLsb' 12 12 }
      let t := (Turn q.val 0 s).modD fun d => { d with qs := d.qs.set q y }
      exec (.queueBindingWrite f q v) s =
        .next (if y.prio ≠ x.prio ∨ y.slot ≠ x.slot ∨ y.erg ≠ x.erg then t.fall f 1 false else t)) ∧
    (¬ InTurn q.val 0 s → x.fn = f → s.d.fns[f].iface ≠ .error → s.inFlr f = false → ∀ t, exec (.queueBindingWrite f q v) s ≠ .next t) ∧
    (x.fn = f → s.inFlr f = false → exec (.queueStatusWrite f q v) s = .next (s.modD fun d => { d with
      qs := d.qs.set q { x with ovf := x.ovf && !v.getLsbD 6, err := x.err && !v.getLsbD 7 } })) ∧
    (x.fn ≠ f ∨ s.inFlr f = true → exec (.queueStatusWrite f q v) s = .next s)) ∧
  (∀ (m : Fin 16) (v : W64) (s : State),
    let x : MSlot := ⟨v.extractLsb' 0 10, v.extractLsb' 10 8, v.extractLsb' 18 8, (v.extractLsb' 26 3).toFin, v.getLsbD 29⟩
    let d := { s.d with slots := s.d.slots.set m x }
    (x.valid = true → x.dw = 0 ∨ 960 < d.sumMin → exec (.modelSlotWrite m v) s = .next s) ∧
    (x.valid = false ∨ (x.dw ≠ 0 ∧ d.sumMin ≤ 960) → InTurn (64 + s.d.slots[m].fn.val) 3 s → InTurn (64 + x.fn.val) 3 s → ∃ t, exec (.modelSlotWrite m v) s = .next t ∧ t.d.slots = s.d.slots.set m x)) ∧
  (∀ (ch : Fin 256) (s : State), ∃ (t : State) (w : BwWin), exec (.bandwidthWindow ch) s = .next t ∧ tabGet t.d.bw ch.val = some w ∧
    w.n = ((tabGet s.d.bw ch.val).map BwWin.n).getD 0 + 1 ∧
    tabGet w.pend 16 = some ((tabGet (s.d.pendingAt ch) 16).getD 0 + 1) ∧
    (∀ j, j ≠ 16 → tabGet w.pend j = tabGet (s.d.pendingAt ch) j) ∧ w.served = allot w.share w.pend ∧
    (∀ o, tabGet s.d.bw ch.val = some o → o.patrol % 1024 < 1023 → w.patrol = o.patrol + 1) ∧ t.d.memP = s.d.memP ∧
    (∀ m : Fin 16, s.d.slots[m].valid = true →
      tabGet w.share m.val = some (s.d.minimumAt ⟨ch.val / 32, by omega⟩ m, s.d.slots[m].weight.toNat)) ∧
    t.cores = s.cores ∧ t.d.mem = s.d.mem ∧ t.d.slots = s.d.slots) ∧
  (∀ (share : List (Nat × Nat × Nat)) (pend : List (Nat × Nat)), pend.Pairwise (fun x y => x.1 < y.1) →
    let minimum := fun (c : Nat × Nat) => ((tabGet share c.1).map Prod.fst).getD 0
    let mine := pend.filter fun c => c.1 != 16
    let total := ((allot share pend).map Prod.snd).sum
    (mine.map minimum).sum ≤ 960 →
      total ≤ 1024 ∧ (∀ c ∈ mine, ∃ n, (c.1, n) ∈ allot share pend ∧ min c.2 (minimum c) ≤ n ∧ n ≤ c.2) ∧
      (mine ≠ [] → (∀ c ∈ mine, 1024 ≤ c.2) → total = 1024)) ∧
  (∀ a b : Nat, 1024 ≤ a → 1024 ≤ b → allot [(2, 256, 3), (6, 128, 1)] [(2, a), (6, b)] = [(2, 736), (6, 288)] ∧
    allot [(2, 256, 3), (6, 128, 1)] [(2, a)] = [(2, 1024)])


/-! ### The mailbox (19, 21, 22) -/

namespace Sys2Proof.Stated

/-- The function's window takes a command now: its interface is not in ERROR (R396), no command of it runs (R389), and no function-level
reset of it is under way (R433). -/
def TakesCommand (f : FnId) (s : State) : Prop := s.d.fns[f].iface ≠ .error ∧ s.d.fns[f].status ≠ 1 ∧ s.inFlr f = false

/-- A command is over (R389, R430): CMD holds its code, STATUS its result, vector 2 is raised, memory is as it was. -/
def CommandEnds (f : FnId) (code : W64) (status : W64) (s t : State) : Prop :=
  t.d.fns[f].cmd = code ∧ t.d.fns[f].status = status ∧ t.d.msix.head? = some (f, 2) ∧ t.d.mem = s.d.mem ∧
  t.d.tick = s.d.tick ∧ ∀ g, g ≠ f → t.d.fns[g].status = s.d.fns[g].status

/-- A command that is refused changes only CMD, STATUS and the vectors (R389). -/
def Refuses (i : Instr) (f : FnId) (code : W64) (reason : W64) (s : State) : Prop :=
  exec i s = .next (s.modD fun d => { d.modFn f (fun x => { x with cmd := code, status := 0x80 + reason }) with
    msix := (f, 2) :: d.msix })

/-- An address in units of w bytes lies in one of some granules of device memory (R382). -/
def inSome (gs : List (Nat × Bool)) (w a : Nat) : Bool :=
  gs.any fun g => decide (g.1 * 2 ^ 30 ≤ a * w) && decide (a * w < min ((g.1 + 1) * 2 ^ 30) 512000000000)

/-- The context that OPA names is a live one of the function. -/
def NamesCtx (f : FnId) (c : Ctx) (s : State) : Prop := s.d.ctx (s.d.fns[f].opa.extractLsb' 0 12) = some c ∧ c.fn = f

end Sys2Proof.Stated

/-- R387, R389, R430: CTX_CREATE, CTX_DESTROY, CTX_AREA, HOLD and RELEASE, with the conditions under which each is done, its effect,
and its refusals by reason. -/
def Sys2Proof.Stated.ContextCommands : Prop :=
  ∀ (f : FnId) (s : State), TakesCommand f s →
    let x := s.d.fns[f]
    let id := x.opa.extractLsb' 0 12
    let sec := x.opa.getLsbD 12
    let tkey := x.opa.extractLsb' 13 12
    let keyOk := ∃ k, s.d.keySlot tkey = some k ∧ k.fn = some f ∧ k.sec = sec ∧ ∀ c ∈ s.d.ctxs, c.tkey ≠ tkey
    let baseOk := x.opb.toNat % 4096 = 0 ∧ s.d.inGranules f (some sec) x.opb.toNat 4096 = true
    (s.d.ctx id = none → keyOk → baseOk → (sec = true → x.iface = .run) →
      ∃ t, exec (.ctxCreate f) s = .next t ∧ CommandEnds f 1 0 s t ∧ t.cores = s.cores ∧
        t.d.ctxs = s.d.ctxs ++ [⟨id, f, sec, false, tkey, x.opb, 0, s.d.nctx⟩] ∧ t.d.nctx = s.d.nctx + 1) ∧
    (s.d.ctx id ≠ none → Refuses (.ctxCreate f) f 1 1 s) ∧
    (s.d.ctx id = none → ¬ keyOk → Refuses (.ctxCreate f) f 1 2 s) ∧
    (s.d.ctx id = none → keyOk → ¬ baseOk → Refuses (.ctxCreate f) f 1 3 s) ∧
    (s.d.ctx id = none → keyOk → baseOk → sec = true → x.iface ≠ .run → Refuses (.ctxCreate f) f 1 4 s) ∧
    (∀ c, NamesCtx f c s →
      ((∀ r ∈ s.d.recs, r.ctx = id → r.st ≠ .running) → ∃ t, exec (.ctxDestroy f) s = .next t ∧ CommandEnds f 2 0 s t ∧
        t.d.ctxs = (s.d.ctxs.filter fun y => y.id != id) ∧ (∀ r ∈ t.d.recs, r.ctx ≠ id) ∧ (∀ y ∈ t.d.cars, y.ctx ≠ id) ∧
        (∀ (die : Fin 4), ∀ v ∈ t.d.seif[die], v.ctx ≠ id) ∧
        ∀ q : Fin 64, s.d.qs[q].ctx = id → s.d.qs[q].fn = f → t.d.qs[q].recs = [] ∧
          t.d.qs[q].err = (s.d.qs[q].err || !s.d.qs[q].recs.isEmpty)) ∧
      ((∃ r ∈ s.d.recs, r.ctx = id ∧ r.st = .running) → Refuses (.ctxDestroy f) f 2 5 s) ∧
      (let ok := x.opb.toNat % 4096 = 0 ∧ s.d.inGranules f (some c.sec) x.opb.toNat 729088 = true;
        (ok → ∃ t, exec (.ctxArea f) s = .next t ∧ CommandEnds f 11 0 s t ∧ t.d.ctx id = some { c with carea := x.opb } ∧
          t.cores = s.cores) ∧
        (¬ ok → Refuses (.ctxArea f) f 11 3 s)) ∧
      (∃ t, exec (.hold f) s = .next t ∧ CommandEnds f 6 0 s t ∧ t.d.ctx id = some { c with held := true } ∧
        ∀ a, (t.core a) = { s.core a with preempt := (s.core a).preempt ||
          ((s.core a).run.isSome && (s.core a).w.pl == 0 && (s.core a).w.ctxid == id) }) ∧
      (∃ t, exec (.release f) s = .next t ∧ CommandEnds f 7 0 s t ∧ t.d.ctx id = some { c with held := false } ∧
        t.cores = s.cores)) ∧
    ((∀ c, ¬ NamesCtx f c s) → Refuses (.ctxDestroy f) f 2 1 s ∧ Refuses (.ctxArea f) f 11 1 s ∧ Refuses (.hold f) f 6 1 s ∧
      Refuses (.release f) f 7 1 s)

/-- R389, R390, R428: KEY_GEN fills a slot with a key that no slot of the function has been given before, KEY_SET with the message of its session,
and KEY_ERASE empties it and closes the memory window that names it; other slots stay; with their refusals by reason. -/
def Sys2Proof.Stated.KeyCommands : Prop :=
  ∀ (f : FnId) (s : State),
    let x := s.d.fns[f]
    let k := x.opa.extractLsb' 0 12
    let sec := x.opa.getLsbD 12
    let other := ∃ y, s.d.keySlot k = some y ∧ y.fn ≠ some f
    let text := (∃ c ∈ s.d.ctxs, c.tkey = k) ∨ (x.stkey = k ∧ k ≠ 0)
    let free := k ≠ 0 ∧ ¬ other ∧ ¬ text
    let keeps := fun (t : State) => ∀ j, j ≠ k → t.d.keySlot j = s.d.keySlot j
    (∀ (session : W64) (m : BitVec 512), s.inFlr f = true → exec (.spdmKeyMessage f session m) s = .next s) ∧
    (∀ (session : W64) (m : BitVec 512), s.inFlr f = false → exec (.spdmKeyMessage f session m) s = .next (s.modD fun d => d.modFn f fun y =>
      { y with spdm := (y.spdm.filter fun e => e.1 != session) ++ [(session, m)] })) ∧
    (TakesCommand f s →
      (free → (sec = true → x.iface = .run) → ∃ t, exec (.keyGen f) s = .next t ∧ CommandEnds f 3 0 s t ∧ keeps t ∧
        t.d.keySlot k = some ⟨some f, sec, .random (8 * x.nrand + f.val)⟩ ∧ t.d.fns[f].nrand = x.nrand + 1 ∧ t.cores = s.cores) ∧
      (∀ m rest, free → x.iface = .run → takeMessage x.opb x.spdm = some (m, rest) →
        (m.extractLsb' 0 256 ≠ m.extractLsb' 256 256 → ∃ t, exec (.keySet f) s = .next t ∧ CommandEnds f 4 0 s t ∧ keeps t ∧
          t.d.keySlot k = some ⟨some f, true, .given m⟩ ∧ t.d.fns[f].spdm = rest ∧ t.cores = s.cores) ∧
        (m.extractLsb' 0 256 = m.extractLsb' 256 256 → Refuses (.keySet f) f 4 8 s)) ∧
      (free → x.iface = .run → takeMessage x.opb x.spdm = none → Refuses (.keySet f) f 4 7 s) ∧
      (k = 0 ∨ other → Refuses (.keyGen f) f 3 2 s ∧ Refuses (.keySet f) f 4 2 s) ∧
      (k ≠ 0 → ¬ other → text → Refuses (.keyGen f) f 3 6 s ∧ Refuses (.keySet f) f 4 6 s) ∧
      (free → x.iface ≠ .run → (sec = true → Refuses (.keyGen f) f 3 4 s) ∧ Refuses (.keySet f) f 4 4 s) ∧
      (∀ y, s.d.keySlot k = some y → y.fn = some f →
        (¬ text → ∃ t, exec (.keyErase f) s = .next t ∧ CommandEnds f 5 0 s t ∧ keeps t ∧ t.d.keySlot k = none ∧
          (x.hkey.setWidth 12 = k → t.d.fns[f].hkey.getLsbD 12 = false) ∧ (x.hkey.setWidth 12 ≠ k → t.d.fns[f].hkey = x.hkey) ∧
          t.cores = s.cores) ∧
        (text → Refuses (.keyErase f) f 5 6 s)) ∧
      (s.d.keySlot k = none ∨ other → Refuses (.keyErase f) f 5 2 s))

/-- R389, R396, R417, R418, R429: SUP_LOAD sets svec, STKEY, STLEN and the supervisor's control words; CHECKPOINT and RESTORE
go on with STATUS 0x01, and a command written meanwhile waits with its operands; with QUIESCE a checkpoint reads the function's granules at one point, and its end has their bytes, with their SHA-384 digest, at its extents; a
restore that follows puts back what they held; an unlisted value reads STATUS 0x80; in ERROR every command is discarded. The readings and choices of log 12,
23, 65 are in it. -/
def Obligations.ImageAndStreamCommands : Prop :=
  ∀ (f : FnId) (s : State),
    let x := s.d.fns[f]
    (TakesCommand f s →
      let a := (x.opa &&& 0x000FFFFFFFFFFFC0).toNat
      let h := fun (i : Nat) => natOf (s.d.fnRead f (a + 8 * i) 8)
      let n := field (h 0) 48 7
      let svec := field (h 0) 6 42 * 64
      let stlen := field (h 1) 32 32
      let inside := s.d.inGranules f none a 64 = true ∧ s.d.inGranules f none a (64 + 32 * min n 64) = true
      let good := field (h 0) 0 6 = 0 ∧ field (h 0) 55 9 = 0 ∧ n ≤ 64 ∧ field (h 1) 12 20 = 0 ∧ stlen % 64 = 0 ∧ 128 ≤ stlen ∧
        (∀ i, i < 6 → h (i + 2) = 0) ∧ s.d.inGranules f none svec stlen = true ∧ field (h 1) 0 12 ≠ 0 ∧
        ∃ k, s.d.keySlot (BitVec.ofNat 12 (h 1)) = some k ∧ k.fn = some f ∧ k.sec = false
      (inside → x.iface = .unlocked → (∀ c ∈ s.d.ctxs, c.fn ≠ f) → good → ∃ t, exec (.supLoad f) s = .next t ∧
        CommandEnds f 10 0 (s.modD fun d => d.settlePages a (64 + 32 * n)) t ∧
        t.d.fns[f].svec = BitVec.ofNat 48 svec ∧ t.d.fns[f].stkey = BitVec.ofNat 12 (h 1) ∧ t.d.fns[f].stlen = BitVec.ofNat 32 stlen ∧
        (∀ i, i < 64 → t.d.fns[f].scwt.get i =
          if i < n then BitVec.ofNat 256 (natOf (s.d.fnRead f (a + 64 + 32 * i) 32)) else 0) ∧ t.cores = s.cores) ∧
      (¬ inside → Refuses (.supLoad f) f 10 3 s) ∧
      (inside → x.iface ≠ .unlocked → Refuses (.supLoad f) f 10 4 s) ∧
      (inside → x.iface = .unlocked → (∃ c ∈ s.d.ctxs, c.fn = f) → Refuses (.supLoad f) f 10 5 s) ∧
      (inside → x.iface = .unlocked → (∀ c ∈ s.d.ctxs, c.fn ≠ f) → ¬ good → Refuses (.supLoad f) f 10 10 s) ∧
      (∀ es, s.d.extents f 1048576 a = some es →
        let quiet := (∀ c ∈ s.d.ctxs, c.fn = f → c.held = true) ∧ ∀ r ∈ s.d.recs, s.d.ctxIs r.ctx f false = true → r.st ≠ .running
        let begins := fun (code : W64) (out q : Bool) => (s.modD fun d =>
          ((d.modFn f fun y => { y with cmd := code }).addStream { x with cmd := code } ⟨out, q, f, es,
            ⟨es, d.granulesOf f, [], [], [], [], ⟨[], []⟩⟩, if out then (d.granulesOf f).map fun g => granUnits g.1 else []⟩).modFn f
              fun y => { y with status := 1 })
        (x.opb.getLsbD 0 = false ∨ quiet → exec (.checkpoint f) s = .next (begins 8 true (x.opb.getLsbD 0))) ∧
        (x.opb.getLsbD 0 = true → ¬ quiet → Refuses (.checkpoint f) f 8 9 s) ∧
        (quiet → exec (.restore f) s = .next (begins 9 false true)) ∧ (¬ quiet → Refuses (.restore f) f 9 9 s)) ∧
      (s.d.extents f 1048576 a = none → Refuses (.checkpoint f) f 8 3 s ∧ Refuses (.restore f) f 9 3 s) ∧
      (∀ v : W64, v = 0 ∨ 11 < v.toNat →
        exec (.unknownCommand f v) s = .next (s.modD fun d => d.modFn f fun y => { y with cmd := v, status := 0x80 }))) ∧
    (x.iface ≠ .error → s.inFlr f = false → x.status = 1 → ∀ y ∈ [(Instr.ctxCreate f, (1 : W64)), (.ctxDestroy f, 2), (.keyGen f, 3),
        (.keySet f, 4), (.keyErase f, 5), (.hold f, 6), (.release f, 7), (.checkpoint f, 8), (.restore f, 9), (.supLoad f, 10), (.ctxArea f, 11)],
      exec y.1 s = .next (s.modD fun d => d.modFn f fun z => { z with cmd := y.2, cmds := z.cmds ++ [(y.2, z.opa, z.opb)] })) ∧
    (∀ w, s.d.streams.find? (fun y => y.fn == f) = some w → x.cmds = [] →
      (w.out = true → w.left = [] → ∃ (t : State) (c : Ckpt), exec (.checkpointComplete f) s = .next t ∧ t.d.fns[f].status = 0 ∧
        t.d.msix = (f, 2) :: s.d.msix ∧ t.d.ckpts = c :: s.d.ckpts ∧ c.ext = w.got.ext ∧ c.grans = w.got.grans ∧ c.mem = w.got.mem ∧
        c.tags = w.got.tags ∧ c.memP = w.got.memP ∧
        (∀ p, p ∈ c.retired ↔ p ∈ s.d.lost ∧ ∃ g ∈ c.grans, g.1 = p * 65536 / 2 ^ 30) ∧
        (∀ a, a < 512000000000 → t.d.mem.get a = s.d.mem.get a) ∧
        (∀ e, c.ext = [e] → e.peer = false → ∀ i, i < e.len.toNat → ∀ h : i < (c.bytes s.d).length,
          t.d.mem.get (512000000000 + e.addr.toNat + i) = (c.bytes s.d)[i]) ∧
        (∃ b, c.bytes s.d = b ++ bytesOf 48 (sha384 b).toNat ++ c.proof.p384 ++ c.proof.lms) ∧
        (∀ y ∈ t.d.streams, y.fn ≠ f) ∧ t.cores = s.cores) ∧
      (w.out = false → s.d.streamFree w.got.grans = true → (∀ (die : Fin 4), ∀ v ∈ s.d.seif[die], v.fn ≠ f) →
        let gs := w.got.grans
        let d := gs.foldl (fun (d : Dev) g => d.settlePages (g.1 * 2 ^ 30) (64 * (granUnits g.1).2)) s.d
        (∃ t, exec (.checkpointComplete f) s = .next t ∧ t.d.fns[f].status = 0 ∧ t.d.msix = (f, 2) :: s.d.msix ∧ t.cores = s.cores ∧
          ∀ a, inSome gs 1 a = false → t.d.mem.get a = d.mem.get a) ∧
        ∀ c, (d.ckpts.find? fun c => c.ext == w.ext) = some c → c.grans.map Prod.fst = gs.map Prod.fst →
          (∀ q ∈ hostParts c.ext (c.bytes d), (upFrom q.1 q.2.length).map d.mem.get = q.2) →
          ∃ t, exec (.checkpointComplete f) s = .next t ∧
            (∀ e, e ∈ t.d.mem ↔ if inSome gs 1 e.1 = true then e ∈ c.mem else e ∈ d.mem) ∧
            (∀ e, e ∈ t.d.tags ↔ if inSome gs 64 e.1 = true then e ∈ c.tags else e ∈ d.tags))) ∧
    (∀ (w : Stream) (fresh : Nat), w.quiet = true → w.left ≠ [] → s.d.settledFor w.fn = true →
      (∀ r ∈ w.left, s.d.locked (64 * r.1) (64 * r.2) = false ∧ ∀ a, 64 * r.1 ≤ a → a < 64 * (r.1 + r.2) → s.d.pending a = false) →
      let u := w.read s.d fresh
      u.2.left = [] ∧ u.1.mem = s.d.mem ∧
      (∀ e, e ∈ u.2.got.mem ↔ e ∈ w.got.mem ∨ e ∈ s.d.mem ∧ ∃ r ∈ w.left, 64 * r.1 ≤ e.1 ∧ e.1 < 64 * (r.1 + r.2)) ∧
      (∀ e, e ∈ u.2.got.tags ↔ e ∈ w.got.tags ∨ e ∈ s.d.tags ∧ ∃ r ∈ w.left, r.1 ≤ e.1 ∧ e.1 < r.1 + r.2)) ∧
    (x.iface = .error ∨ s.inFlr f = true → ∀ i ∈ [Instr.ctxCreate f, .ctxDestroy f, .keyGen f, .keySet f, .keyErase f, .hold f, .release f, .checkpoint f,
      .restore f, .supLoad f, .ctxArea f], exec i s = .next s)


/-! ### Interfaces and assignments (19) -/

namespace Sys2Proof.Stated

/-- An interface in CONFIG_LOCKED or RUN falls to ERROR (R396, R400): secure keys and secure caravans, with their records and pending
launches, are gone; contexts, other functions' keys and the caravans of other contexts stay. `why` is IFWHY. -/
def Falls (f : FnId) (why : Nat) (s t : State) : Prop :=
  let sec := fun (id : BitVec 12) => s.d.ctxIs id f true
  t.d.fns[f].iface = .error ∧ t.d.fns[f].err.getLsbD 2 = true ∧ (t.d.fns[f].err.extractLsb' 3 3).toNat = why ∧
  (∀ j k, t.d.keySlot j = some k → ¬ (k.sec = true ∧ k.fn = some f)) ∧
  (∀ j k, s.d.keySlot j = some k → ¬ (k.sec = true ∧ k.fn = some f) → t.d.keySlot j = some k) ∧
  t.d.ctxs = s.d.ctxs ∧ (∀ y ∈ t.d.cars, sec y.ctx = false) ∧ (∀ r ∈ t.d.recs, sec r.ctx = false) ∧
  (∀ y ∈ s.d.cars, (∀ z ∈ s.d.cars, z.id = y.id → sec z.ctx = false) → y ∈ t.d.cars) ∧
  (∀ q : Fin 64, sec s.d.qs[q].ctx = true → t.d.qs[q].recs = [] ∧ t.d.qs[q].err = (s.d.qs[q].err || !s.d.qs[q].recs.isEmpty)) ∧
  (∀ q : Fin 64, sec s.d.qs[q].ctx = false → t.d.qs[q] = s.d.qs[q]) ∧
  (∀ c y, (s.core c).car = some y.id → y ∈ s.d.cars → sec y.ctx = true → (t.core c).car = none ∧ (t.core c).run = none) ∧
  (∀ c, (∀ y ∈ s.d.cars, (s.core c).car = some y.id ∨ (s.core c).lineCar = some y.id → sec y.ctx = false) → t.core c = s.core c) ∧
  t.d.mem = s.d.mem ∧ ∀ g, g ≠ f → t.d.fns[g].iface = s.d.fns[g].iface

/-- A locked item of a function is changed, the state after the change being s (R395): the interface falls where it is locked. -/
def Touches (f : FnId) (s t : State) : Prop :=
  ((s.d.fns[f].iface = .locked ∨ s.d.fns[f].iface = .run) → Falls f 1 s t) ∧
  (s.d.fns[f].iface ≠ .locked → s.d.fns[f].iface ≠ .run → t = s)

/-- What answers in state s leaves u and a response. -/
def Answers (i : Instr) (r : Resp) (s u : State) : Prop :=
  exec i s = .next (u.modD fun d => { d with resps := r :: d.resps })

/-- A response of the device, the machine otherwise as it was. -/
def Responds (i : Instr) (r : Resp) (s : State) : Prop := Answers i r s s

/-- Machine-level changes at the configuration points of some functions are counted (R393). -/
def TurnAll (fs : List FnId) (s : State) : State := fs.foldl (fun s f => Turn (64 + f.val) 3 s) s

/-- No arrival of this cycle at the configuration points of some functions has had a greater rank than a machine-level change. -/
def InTurnAll (fs : List FnId) (s : State) : Prop := ∀ f ∈ fs, InTurn (64 + f.val) 3 s

end Sys2Proof.Stated

/-- R393, R394, R397, R398: each TDISP request is answered as the interface's state has it: LOCK freezes the locked items,
START enters RUN, STOP ends the function's contexts, erases its secure keys and puts its secure granules to scrub; else the
error response alone, as before the end of a function-level reset (R433). The readings and choices of log 6, 72, 112 are in it. -/
def Obligations.InterfaceRequests : Prop :=
  ∀ (f : FnId) (s : State), InTurn (64 + f.val) 2 s →
    let u := Turn (64 + f.val) 2 s
    let x := s.d.fns[f]
    let lockable := x.command.getLsbD 1 = true ∧ x.bar0 ≠ 0 ∧ x.bar2 ≠ 0 ∧ x.bar4 ≠ 0 ∧ x.ide = true ∧
      (∃ c : Fin 32, s.d.clus[c].owner = some f) ∧ ∃ g : Fin 477, s.d.grans[g].owner = some f
    (s.inFlr f = true → ∀ i ∈ [Instr.lockInterfaceRequest f, .startInterfaceRequest f, .stopInterfaceRequest f,
      .getDeviceInterfaceReport f, .getDeviceInterfaceState f, .getTdispVersion f, .getTdispCapabilities f],
      Answers i (.tdisp f 1 []) s u) ∧
    (s.inFlr f = false →
    (x.iface = .unlocked → lockable → ∃ (t : State) (z : Frozen), exec (.lockInterfaceRequest f) s = .next t ∧
      t = (u.modD fun d => { d.modFn f (fun y => { y with iface := .locked, frozen := some z }) with
        resps := .tdisp f 0 [] :: d.resps }) ∧
      z.bar0 = x.bar0 ∧ z.bar2 = x.bar2 ∧ z.bar4 = x.bar4 ∧ z.mask = x.mask ∧
      (∀ c : Fin 32, z.clus.getLsbD c.val = (s.d.clus[c].owner == some f) ∧
        z.csec.getLsbD c.val = (s.d.clus[c].owner == some f && s.d.clus[c].sec)) ∧
      (∀ q : Fin 64, z.queues.getLsbD q.val = (s.d.qs[q].fn == f)) ∧ (∀ m : Fin 16, z.slots.getLsbD m.val = (s.d.slots[m].fn == f)) ∧
      ∀ (g : Fin 477) (b : Bool), (g.val, b) ∈ z.grans ↔ s.d.grans[g].owner = some f ∧ s.d.grans[g].sec = b) ∧
    (x.iface ≠ .unlocked ∨ ¬ lockable → Answers (.lockInterfaceRequest f) (.tdisp f 1 []) s u) ∧
    (x.iface = .locked → exec (.startInterfaceRequest f) s = .next (u.modD fun d =>
      { d.modFn f (fun y => { y with iface := .run }) with resps := .tdisp f 0 [] :: d.resps })) ∧
    (x.iface ≠ .locked → Answers (.startInterfaceRequest f) (.tdisp f 1 []) s u) ∧
    (x.iface ≠ .unlocked → ∃ t, exec (.stopInterfaceRequest f) s = .next t ∧ t.d.fns[f].iface = .unlocked ∧ t.d.fns[f].frozen = none ∧
      (∀ c, c ∈ t.d.ctxs ↔ c ∈ s.d.ctxs ∧ ∀ y ∈ s.d.ctxs, y.id = c.id → y.fn ≠ f) ∧ (∀ j k, t.d.keySlot j = some k → ¬ (k.sec = true ∧ k.fn = some f)) ∧
      (∀ g : Fin 477, s.d.grans[g].owner = some f → s.d.grans[g].sec = true →
        t.d.scrubG.contains g.val = true ∧ ∀ p ∈ t.d.scrubbed, p * 65536 / 2 ^ 30 ≠ g.val) ∧
      t.d.mem = s.d.mem ∧ t.d.resps = .tdisp f 0 [] :: s.d.resps) ∧
    (x.iface = .unlocked → Answers (.stopInterfaceRequest f) (.tdisp f 1 []) s u) ∧
    (∀ z : Frozen, x.frozen = some z → x.iface = .locked ∨ x.iface = .run → ∃ b : List Byte,
      Answers (.getDeviceInterfaceReport f) (.tdisp f 0 b) s u ∧
      let at_ := fun (o n : Nat) => natOf ((b.drop o).take n)
      at_ 0 2 = 1 ∧ at_ 2 1 = f.val ∧ at_ 3 1 = (if x.iface = .locked then 1 else 2) ∧ at_ 4 2 = 0x0100 ∧ at_ 6 2 = z.mask.toNat ∧
      at_ 8 4 = z.clus.toNat ∧ at_ 12 4 = z.csec.toNat ∧ at_ 16 8 = z.queues.toNat ∧ at_ 24 2 = z.slots.toNat ∧
      at_ 26 1 = 3 ∧ at_ 28 4 = 0 ∧ at_ 32 48 = ((s.d.boot.image.map Image.digest).getD 0).toNat ∧ (∀ i : Fin 3, at_ (80 + 24 * i.val) 1 = 2 * i.val ∧
        at_ (88 + 24 * i.val) 8 = ([z.bar0, z.bar2, z.bar4].getD i.val 0).toNat ∧
        at_ (96 + 24 * i.val) 8 = 2 ^ [20, 14, 39].getD i.val 0) ∧ b.length = 152 + 8 * (runsOf z.grans).length) ∧
    (x.iface = .unlocked ∨ x.iface = .error → Answers (.getDeviceInterfaceReport f) (.tdisp f 1 []) s u) ∧
    Answers (.getDeviceInterfaceState f)
      (.tdisp f 0 [match x.iface with | .unlocked => 0 | .locked => 1 | .run => 2 | .error => 3]) s u ∧
    (∃ b, Answers (.getTdispVersion f) (.tdisp f 0 b) s u) ∧ ∃ b, Answers (.getTdispCapabilities f) (.tdisp f 0 b) s u)

/-- R382, R383, R385, R394, R395, R396, R400: a write of configuration space and a change of an assignment take effect, and move a locked
interface they touch to ERROR with the effects of R396; a cluster whose owner or world changes runs nothing more of a context that
may not run there; a write of error reporting clears the bits it gives as 1, in every state. Before boot has trained the memory a write of
configuration space has retry status, and before a function-level reset completes it is discarded (R433). The readings and choices of log 69, 73
are in it. -/
def Obligations.LockedItems : Prop :=
  (∀ (f : FnId) (v : W64) (s : State),
    (InTurn (64 + f.val) 1 s → s.d.training = true → ∀ r, Answers (.configSpaceWrite f r v) (.retry f) s (Turn (64 + f.val) 1 s)) ∧
    (InTurn (64 + f.val) 1 s → s.d.training = false → s.inFlr f = true → ∀ r, exec (.configSpaceWrite f r v) s = .next (Turn (64 + f.val) 1 s)) ∧
    (InTurn (64 + f.val) 1 s → s.d.training = false → s.inFlr f = false →
      let set := fun (g : Fn → Fn) => (Turn (64 + f.val) 1 s).modD fun d => d.modFn f g
      (∃ t, exec (.configSpaceWrite f .bar0 v) s = .next t ∧ Touches f (set fun x => { x with bar0 := v &&& 0xFFFFFFFFFFF00000 }) t) ∧
      (∃ t, exec (.configSpaceWrite f .bar2 v) s = .next t ∧ Touches f (set fun x => { x with bar2 := v &&& 0xFFFFFFFFFFFFC000 }) t) ∧
      (∃ t, exec (.configSpaceWrite f .bar4 v) s = .next t ∧ Touches f (set fun x => { x with bar4 := v &&& 0xFFFFFF8000000000 }) t) ∧
      ∃ t, exec (.configSpaceWrite f .command v) s = .next t ∧ Touches f (set fun x => { x with command := v }) t) ∧
    (¬ InTurn (64 + f.val) 1 s → ∀ r t, exec (.configSpaceWrite f r v) s ≠ .next t) ∧
    exec (.errorReportWrite f v) s =
      .next (if s.inFlr f then s else s.modD fun d => d.modFn f fun x => { x with err := x.err &&& ~~~v })) ∧
  (∀ (c : Fin 32) (g : Fin 477) (q : Fin 64) (m : Fin 16) (f o : FnId) (sec : Bool) (s : State),
    (s.d.clus[c].owner = some o → InTurnAll [o, f] s → ∃ t u, exec (.assignmentChange (.cluster c (some f) sec)) s = .next t ∧
      Touches o (((TurnAll [o, f] s).modD fun d => { d with clus := d.clus.set c ⟨some f, sec, d.clus[c].retired⟩ }).evict c) u ∧
      Touches f u t) ∧
    (s.d.clus[c].owner = none → InTurnAll [f] s → ∃ t, exec (.assignmentChange (.cluster c (some f) sec)) s = .next t ∧
      Touches f (((TurnAll [f] s).modD fun d => { d with clus := d.clus.set c ⟨some f, sec, d.clus[c].retired⟩ }).evict c) t) ∧
    (s.d.grans[g].owner = some o → InTurnAll [o] s → ∃ t, exec (.assignmentChange (.granule g none sec)) s = .next t ∧
      Touches o ((TurnAll [o] s).modD fun d => { d with grans := d.grans.set g ⟨none, sec⟩ }) t) ∧
    (s.d.grans[g].owner = none → InTurnAll [f] s → ∃ t, exec (.assignmentChange (.granule g (some f) sec)) s = .next t ∧
      Touches f ((TurnAll [f] s).modD fun d => { d with grans := d.grans.set g ⟨some f, sec⟩ }) t) ∧
    (InTurnAll [s.d.qs[q].fn, f] s → ∃ t u, exec (.assignmentChange (.queue q f)) s = .next t ∧
      Touches s.d.qs[q].fn ((TurnAll [s.d.qs[q].fn, f] s).modD fun d => { d with qs := d.qs.set q { d.qs[q] with fn := f } }) u ∧
      Touches f u t) ∧
    (InTurnAll [s.d.slots[m].fn, f] s → ∃ t u, exec (.assignmentChange (.slot m f)) s = .next t ∧
      Touches s.d.slots[m].fn ((TurnAll [s.d.slots[m].fn, f] s).modD fun d =>
        { d with slots := d.slots.set m { d.slots[m] with fn := f } }) u ∧ Touches f u t)) ∧
  (∀ (cl : Fin 32) (s : State),
    ((∀ c ∈ coresOf cl, ((s.core c).active = false ∧ (s.core c).car = none) ∨
      ∀ x, s.ctxOf c = some x → s.ownCluster c x = true) → s.evict cl = s) ∧
    (∀ c ∈ coresOf cl, ∀ x, s.ctxOf c = some x → s.ownCluster c x = false →
      (∀ id, (s.core c).car = some id → (s.d.car id).isSome = true) →
      (s.core c).active = true ∨ (s.core c).car.isSome = true →
      ((s.evict cl).core c).run = none ∧ ((s.evict cl).core c).car = none))

/-- R8, R394, R399, R401, R416, R432, R433: receipts and attestation are answered with what the device holds, under two signatures (their
lengths are the model's, log 72); debug and trace are gated while an interface is locked; the IDE stream's state is kept; a per-function
reset unlocks the interface and resets its queues and registers, and leaves its assignments; it completes later. -/
def Sys2Proof.Stated.ReceiptsDebugAndReset : Prop :=
  (∀ (f : FnId) (secure : Bool) (p : DebugPort) (s : State),
    (s.inFlr f = true → exec (.scrubReceiptRead f) s = .next s ∧ exec (.attestationRequest f) s = .next s) ∧
    (s.inFlr f = false →
      (∃ (r : Option Receipt) (sig : Signed), Responds (.scrubReceiptRead f) (.receipt f r sig) s ∧ sig.p384.length = 96 ∧
        sig.lms.length = 1772 ∧ (∀ x, r = some x → x ∈ s.d.receipts) ∧ (s.d.receipts ≠ [] → r ≠ none)) ∧
      (∃ sig : Signed, Responds (.attestationRequest f)
        (.attestation f (bytesOf 48 ((s.d.boot.image.map Image.digest).getD 0).toNat) sig) s ∧ sig.p384.length = 96 ∧
        sig.lms.length = 1772)) ∧
    ((∃ g : FnId, s.d.fns[g].iface = .locked ∨ s.d.fns[g].iface = .run) → Responds (.debugTraceRequest p) (.discarded p) s) ∧
    ((∀ g : FnId, s.d.fns[g].iface = .unlocked ∨ s.d.fns[g].iface = .error) → Responds (.debugTraceRequest p) (.debugData p) s) ∧
    exec (.ideStreamStateChange f secure) s = .next (s.modD fun d => d.modFn f fun x => { x with ide := secure })) ∧
  (∀ (f : FnId) (s : State), s.inFlr f = true →
    flrDone f s = .next (s.modD fun d => { d with flr := setDel d.flr f.val })) ∧
  (∀ (f : FnId) (s : State), InTurn (64 + f.val) 0 s → ∃ t, exec (.functionLevelReset f) s = .next t ∧ t.inFlr f = true ∧
    let x := t.d.fns[f]
    (s.d.fns[f].status = 1 → x.status = 0x8B) ∧ (∀ y ∈ t.d.streams, y.fn ≠ f) ∧
    x.iface = .unlocked ∧ x.frozen = none ∧ x.bar0 = 0 ∧ x.bar2 = 0 ∧ x.bar4 = 0 ∧ x.command = 0 ∧ x.err = 0 ∧
    x.mask = s.d.fns[f].mask ∧ (∀ c ∈ t.d.ctxs, c.fn = f → False) ∧
    (∀ q : Fin 64, (s.d.qs[q].fn = f → t.d.qs[q].en = false ∧ t.d.qs[q].recs = []) ∧ t.d.qs[q].fn = s.d.qs[q].fn ∧
      t.d.qs[q].slot = s.d.qs[q].slot ∧ (s.d.qs[q].fn ≠ f → t.d.qs[q].en = s.d.qs[q].en)) ∧
    t.d.clus = s.d.clus ∧ t.d.grans = s.d.grans ∧ t.d.slots = s.d.slots ∧ t.d.mem = s.d.mem ∧
    (∀ g, g ≠ f → t.d.fns[g].iface = s.d.fns[g].iface ∧ t.d.fns[g].mask = s.d.fns[g].mask) ∧ t.d.resps = s.d.resps)


/-! ### Errors, retirement, scrub and monitors (21) -/

namespace Sys2Proof.Stated

/-- An uncorrectable error in a unit of a core's stores marks that unit and no other as poisoned; the data stays (R405). `sel` reads the
marks of the store, n is the unit. -/
def Poisons (u : ErrUnit) (c : CoreId) (sel : Core → Nat → Bool) (n : Nat) (s : State) : Prop :=
  ∃ t, exec (.uncorrectableError u) s = .next t ∧ t.d = s.d ∧ (∀ j, sel (t.core c) j = (j == n || sel (s.core c) j)) ∧
    (t.core c).r.s = (s.core c).r.s ∧ (t.core c).r.v = (s.core c).r.v ∧ (t.core c).r.g = (s.core c).r.g ∧
    (t.core c).m.spad = (s.core c).m.spad ∧ (t.core c).m.bank = (s.core c).m.bank ∧ (t.core c).m.sl = (s.core c).m.sl ∧
    (t.core c).m.cwt = (s.core c).m.cwt ∧ (t.core c).f = (s.core c).f ∧ ∀ a, a ≠ c → t.core a = s.core a

end Sys2Proof.Stated

/-- R393, R404, R405, R407, R408, R411: an uncorrectable error poisons the unit of R404 and leaves its data; in device memory
it is counted in the unit's stack (stackOf); in a supervisor control word table it is an error of the function. A correctable error is
counted and changes nothing else; a requested scrub changes nothing but the traffic of its channels. UNCORRECTABLE_ERROR and CORRECTABLE_ERROR complete on
every unit that is there, ON_DEMAND_SCRUB (onDemandScrub) on every range of device memory. The readings and choices of log 75 are in
it. -/
def Obligations.ErrorsPoisonTheirUnit : Prop :=
  (∀ (c : CoreId) (s : State),
    (∀ l, Poisons (.spadLine c l) c (fun k j => k.m.spadP.contains j) l.val s) ∧
    (∀ e, Poisons (.cwtEntry c e) c (fun k j => k.m.cwtP.contains j) e.val s) ∧
    (∀ e, Poisons (.routine c e) c (fun k j => k.mx.entP.contains j) e.val s) ∧
    (∀ i, Poisons (.microWord c i) c (fun k j => k.mx.micP.contains j) i.val s) ∧
    (∀ e, Poisons (.stagedRoutine c e) c (fun k j => k.mx.sentP.contains j) e.val s) ∧
    (∀ i, Poisons (.stagedWord c i) c (fun k j => k.mx.smicP.contains j) i.val s) ∧
    (∀ b r, Poisons (.bankRow c b r) c (fun k j => k.m.bankP.contains j) (32 * b.val + r.val) s) ∧
    (∀ u, Poisons (.spill c u) c (fun k j => k.m.spillP.contains j) u.val s) ∧
    (∀ l h, Poisons (.slHalf c l h) c (fun k j => k.m.slP.getLsbD j) (2 * l.val + bit h) s) ∧
    (∀ r, Poisons (.sreg c r) c (fun k j => k.r.sp.getLsbD j) r.val s) ∧ (∀ r, Poisons (.vreg c r) c (fun k j => k.r.vp.getLsbD j) r.val s) ∧
    (∀ r, Poisons (.greg c r) c (fun k j => k.r.gp.getLsbD j) r.val s) ∧ (∀ r, Poisons (.mpreg c r) c (fun k j => k.r.mpp.getLsbD j) r.val s) ∧
    (∀ r, Poisons (.shreg c r) c (fun k j => k.r.shp.getLsbD j) r.val s) ∧
    (∀ r, Poisons (.xlatch c r) c (fun k j => k.r.xp.getLsbD j) r.val s) ∧
    (∀ seq, (s.core c).oasisHas seq = true → ∃ t, exec (.uncorrectableError (.oasis c seq)) s = .next t ∧
      (t.core c).q.ld = (s.core c).q.ld.map (fun e => if e.seq = seq ∧ e.ret = .oasis then { e with poison := true } else e) ∧
      (t.core c).q.at_ = (s.core c).q.at_.map (fun e => if e.seq = seq ∧ e.ret = .oasis then { e with poison := true } else e) ∧
      t.d = s.d)) ∧
  (∀ (u : Nat) (s : State), 64 * u < 512000000000 → let k := stackOf u; ∃ t v : State,
    exec (.uncorrectableError (.memUnit u)) s = .next t ∧ exec (.correctableError (.memUnit u)) s = .next v ∧
    t = s.modD (fun d => { d with memP := setAdd d.memP u, hbm := d.hbm.set k { d.hbm[k] with
      uec := BitVec.ofNat 16 (min (d.hbm[k].uec.toNat + 1) 255) } }) ∧
    v = s.modD (fun d => { d with hbm := d.hbm.set k { d.hbm[k] with cec := BitVec.ofNat 16 (min (d.hbm[k].cec.toNat + 1) 255) } }) ∧
    (s.d.pending (64 * u) = false → t.d.memPoisoned (64 * u) 64 = true) ∧ ∀ p, p ∈ t.d.memP ↔ p = u ∨ p ∈ s.d.memP) ∧
  (∀ (die : Fin 4) (u : Nat) (s : State), 64 * u < 2 ^ 30 → ∃ t, exec (.uncorrectableError (.wsUnit die u)) s = .next t ∧
    (∀ p, p ∈ t.d.wsP[die] ↔ p = u ∨ p ∈ s.d.wsP[die]) ∧ t.d.ws = s.d.ws ∧ t.cores = s.cores) ∧
  (∀ (f : FnId) (e : Fin 64) (s : State), ∃ t, exec (.uncorrectableError (.supCwt f e)) s = .next t ∧
    (∀ p, p ∈ t.d.fns[f].scwtP ↔ p = e.val ∨ p ∈ s.d.fns[f].scwtP) ∧ t.d.fns[f].scwt = s.d.fns[f].scwt ∧
    (s.d.fns[f].iface = .locked ∨ s.d.fns[f].iface = .run → Falls f 4 s t)) ∧
  (∀ (u : ErrUnit) (s : State), s.hasUnit u = true → (∀ n, u ≠ .memUnit n) → exec (.correctableError u) s = .next s) ∧
  (∀ (u : ErrUnit) (s : State), s.hasUnit u = true →
    (∃ t, exec (.uncorrectableError u) s = .next t) ∧ ∃ t, exec (.correctableError u) s = .next t) ∧
  (∀ (u n : Nat) (s : State), 64 * (u + n) ≤ 512000000000 → ∃ x,
    exec (.onDemandScrub u n) s = .next (s.modD fun d => { d with asked := x }))

/-- R393, R409, R410, R412: a channel's retirement sets its bit and takes its repair pages out of use; each page that lies on it waits for
its move where it is assigned and a repair page is free, else its data is lost, an error of the function; a page is locked, then
redirected with its bytes as they were. -/
def Sys2Proof.Stated.ChannelsRetire : Prop :=
  (∀ (k : Fin 8) (ch : Fin 32) (pages : List Nat) (s : State), s.d.hbm[k].rch.getLsbD ch.val = false →
    let g : Fin 256 := ⟨32 * k.val + ch.val, by omega⟩
    (∀ p, p ∈ pages ↔ p < 7812500 ∧ s.d.onChannel g p = true) →
    ∃ t, exec (.channelRetire k ch pages) s = .next t ∧ t.d.hbm[k].rch = s.d.hbm[k].rch ||| BitVec.twoPow 32 ch.val ∧
      (∀ j, j ≠ k → t.d.hbm[j] = s.d.hbm[j]) ∧ (∀ p ∈ pages, p ∈ t.d.lost ∨ (tabGet t.d.moves p).isSome = true) ∧
      (∀ p ∈ t.d.lost, p ∈ s.d.lost ∨ p ∈ pages) ∧
      (∀ r ∈ t.d.hbm[k].pool, r ∈ s.d.hbm[k].pool ∧ Config.channelOf r ≠ g) ∧
      (∀ p r, tabGet t.d.moves p = some r → tabGet s.d.moves p = some r ∨
        p ∈ pages ∧ r ∈ s.d.hbm[k].pool ∧ Config.channelOf r ≠ g ∧ (s.d.pageOwner p).isSome = true) ∧
      t.d.mem = s.d.mem ∧ t.d.slots = s.d.slots ∧
      (∀ j, (t.d.stackLoad j).2 < (t.d.stackLoad j).1 → ∀ m : Fin 16, s.d.slots[m].valid = true → s.d.slots[m].minbw ≠ 0 →
        t.d.fns[s.d.slots[m].fn].err.getLsbD 7 = true)) ∧
  (∀ (k : Fin 8) (p : Nat) (s : State), ¬ p ∈ s.d.lost →
    let t := s.retirePage k p
    (∀ f r rs, s.d.pageOwner p = some f → s.d.hbm[k].pool = r :: rs →
      tabGet t.d.moves p = some r ∧ t.d.hbm[k].pool = rs ∧ t.d.lost = s.d.lost ∧ t.cores = s.cores) ∧
    (∀ f, s.d.pageOwner p = some f → s.d.hbm[k].pool = [] → t.d.lost = setAdd s.d.lost p ∧ tabGet t.d.moves p = none ∧
      (s.d.fns[f].iface = .locked ∨ s.d.fns[f].iface = .run → Falls f 4 s t)) ∧
    (s.d.pageOwner p = none → t.d.lost = setAdd s.d.lost p ∧ tabGet t.d.moves p = none ∧
      ∀ h : FnId, t.d.fns[h].iface = s.d.fns[h].iface)) ∧
  (∀ (k : Fin 8) (p r : Nat) (s : State), tabGet s.d.moves p = some r →
    (s.d.moving.contains p = false → ∃ t, exec (.pageMove k p false) s = .next t ∧
      t.d.locked (p * 65536) 65536 = true ∧ t.d.mem = s.d.mem ∧ t.cores = s.cores) ∧
    (s.d.moving.contains p = true → ∃ t, exec (.pageMove k p true) s = .next t ∧ t.d.locked (p * 65536) 65536 = false ∧
      t.d.placeOf p = r ∧ tabGet t.d.moves p = none ∧ t.d.mem = s.d.mem ∧ t.d.tags = s.d.tags ∧ t.d.memP = s.d.memP ∧
      t.cores = s.cores))

/-- R326, R369, R413: a retiring cluster is selected for no more and its cores stop with PREEMPT; once all are idle, the lines of its caravans and their state
move to the same positions of the replacement, which becomes their home; a caravan with no replacement ends with completion word 8. -/
def Sys2Proof.Stated.ClustersRetire : Prop :=
  (∀ (cl : Fin 32) (repl : Option (Fin 32)) (s : State), s.d.clus[cl].retired = false →
    (∃ c ∈ coresOf cl, (s.core c).active = true) ∨ (repl = none ∧ ∀ x ∈ s.d.cars, s.holdsLines cl x = false) →
    ∃ t, exec (.clusterRetire cl repl) s = .next t ∧ t.d.clus[cl].retired = true ∧ t.d.clus[cl].owner = s.d.clus[cl].owner ∧
      (∀ c, clusOf c = cl → (t.core c).preempt = ((s.core c).preempt || ((s.core c).run.isSome && (s.core c).w.pl == 0)) ∧
        (t.core c).r = (s.core c).r ∧ (t.core c).m = (s.core c).m) ∧ (∀ c, clusOf c ≠ cl → t.core c = s.core c) ∧
      (∀ f, s.d.clus[cl].owner = some f → t.d.fns[f].err.getLsbD 7 = true) ∧ t.d.mem = s.d.mem) ∧
  (∀ (cl r : Fin 32) (s : State), s.d.clus[cl].retired = true →
    (∀ c ∈ coresOf cl, (s.core c).active = false ∧ (s.core c).enginesDone = true) →
    s.mayReplace cl r = true → ∃ t, exec (.clusterRetire cl (some r)) s = .next t ∧
      (∀ p, p < 10 → ∀ x ∈ s.d.cars, s.holdsLines cl x = true → (s.core (coreAt cl.val p)).lineCar = some x.id →
        let old := s.core (coreAt cl.val p)
        let new := t.core (coreAt r.val p)
        new.m.spad = old.m.spad ∧ new.m.empty = old.m.empty ∧ new.m.spadP = old.m.spadP ∧ new.lineCtx = old.lineCtx ∧
          new.lineCar = some x.id ∧ (t.core (coreAt cl.val p)).car = none ∧
          (∀ y, old.car = some y → new.car = some y ∧ new.m.cwt = old.m.cwt ∧ new.mx.ent = old.mx.ent ∧ new.mx.mic = old.mx.mic ∧
            new.w.htb = old.w.htb ∧ new.w.sfc = old.w.sfc ∧ new.w.aown = (s.core (coreAt r.val p)).w.aown)) ∧
      (∀ x ∈ s.d.cars, s.holdsLines cl x = true → x.clus = cl.val → ∃ y ∈ t.d.cars, y.id = x.id ∧ y.clus = r.val ∧ y.rec_ = x.rec_) ∧
      (∀ c, clusOf c ≠ cl → clusOf c ≠ r → t.core c = s.core c) ∧ t.d.mem = s.d.mem) ∧
  (∀ (cl : Fin 32) (x : Caravan) (s u : State), s.d.clus[cl].retired = true →
    (∀ c ∈ coresOf cl, (s.core c).active = false ∧ (s.core c).enginesDone = true) →
    (∀ r, s.mayReplace cl r = false) → s.d.cars.filter (fun y => s.holdsLines cl y) = [x] →
    s.completeWrite x.queue (field x.rec_.toNat 576 64) 0x8000000000000008 = some u →
    ∃ t, exec (.clusterRetire cl none) s = .next t ∧ (∀ y ∈ t.d.cars, y.id ≠ x.id) ∧ t.d.mem = u.d.mem)

/-- R390, R409, R414, R415, R416, R422: a tenant scrub takes the pages still pending, those that an access waits for first and else in
address order, the first of a granule whose scrub the machine level starts (log 100) among them: its bytes read zero under slot 0, nothing of it is poisoned, and no other byte changes; a page whose data is lost
is noted; failures are noted, and one that stays retires the page; the last page issues the receipt, which lists every page of the granule that is lost. The readings and choices of
log 3, 13, 72 are in it. -/
def Obligations.TenantScrub : Prop :=
  ∀ (g : Fin 477) (page : Nat) (bad : List (Nat × Bool)) (s : State),
    let u := if s.d.scrubG.contains g.val then s else s.modD fun d => d.startScrub [g.val]
    page ∈ granPages g → u.d.scrubbed.contains page = false → u.scrubNext g page = true → s.d.moving.contains page = false →
    (∀ b ∈ bad, b.1 < 1024) →
    ∃ t, exec (.tenantScrubPage g page bad) s = .next t ∧ t.d.pending (page * 65536) = false ∧
      (¬ page ∈ s.d.lost → (∀ pa, pa / 65536 = page → t.d.byteAt ⟨.slot0, none⟩ pa = 0) ∧ (∀ u ∈ t.d.memP, 64 * u / 65536 ≠ page)) ∧
      (∀ pa, pa / 65536 ≠ page → t.d.mem.get pa = s.d.mem.get pa) ∧
      (s.d.scrubG.contains g.val = true → ∀ pa, pa < 512000000000 → pa / 65536 ≠ page → t.d.tag (pa / 64) = s.d.tag (pa / 64)) ∧
      (∀ p, p ∈ t.d.lost ↔ p ∈ s.d.lost ∨ p = page ∧ ∃ b ∈ bad, b.2 = true ∧ ¬ page ∈ s.d.lost) ∧
      (s.d.scrubG.contains g.val = false → ∀ p ∈ granPages g, u.d.pending (p * 65536) = true) ∧
      (let fresh := if page ∈ s.d.lost then [(page * 65536, 1)] else (pageNotes page bad).1
       let last := (granPages g).all fun p => p == page || u.d.scrubbed.contains p
       (last = false → t.d.receipts = s.d.receipts ∧ t.d.notes = u.d.notes ++ fresh ∧ t.d.scrubG = u.d.scrubG) ∧
       (last = true → t.d.scrubG.contains g.val = false ∧ t.d.nrec = s.d.nrec + 1 ∧ ∃ r, t.d.receipts = (r :: s.d.receipts).take 256 ∧
         r.seq = s.d.nrec + 1 ∧ r.gran = g.val ∧ (∀ f, tabGet u.d.scrubFn g.val = some f → r.fn = f) ∧
         (∀ e, e ∈ u.d.notes ++ fresh → e.1 / 2 ^ 30 = g.val → e ∈ r.bad) ∧
         (∀ e ∈ r.bad, e ∈ u.d.notes ++ fresh ∧ e.1 / 2 ^ 30 = g.val ∨ e.2 = 1 ∧ ∃ p ∈ t.d.lost, e.1 = p * 65536 ∧ e.1 / 2 ^ 30 = g.val) ∧
         (∀ p ∈ t.d.lost, p * 65536 / 2 ^ 30 = g.val → ∃ e ∈ r.bad, e.1 = p * 65536 ∧ e.2 ≠ 2)))

/-- R396, R411, R419, R421: a write of a stack's status clears its error counts; the control word of a monitor of the
function's clusters, or of a controller with the class of a slot it owns, is stored, a quantity that does not apply as 0; CLR
resets the counts; every other write is discarded. The readings and choices of log 40 are in it. -/
def Obligations.StackAndMonitorWrites : Prop :=
  ∀ (f : FnId) (k : Fin 8) (c : Fin 32) (ch : Fin 256) (v : W64) (s : State),
    let q := v.toNat % 8
    let control := fun (m : Mon) (ok : Bool) =>
      let y : BitVec 7 := BitVec.ofNat 7 ((if ok then q else 0) + v.toNat / 8 % 16 * 8)
      if v.getLsbD 7 then (⟨y, m.sel, 0xFFFFFFFF, 0, Vector.replicate 16 0⟩ : Mon) else { m with qty := y }
    let slot : Fin 16 := Fin.ofNat 16 (v.toNat / 8 % 16)
    (s.d.fns[f].iface ≠ .error → s.inFlr f = false →
      exec (.stackStatusWrite f k v) s = .next (s.modD fun d => { d with hbm := d.hbm.set k { d.hbm[k] with cec := 0, uec := 0 } }) ∧
      (s.d.clus[c].owner = some f → exec (.monitorControlWrite f (.cluster c) v) s = .next (s.modD fun d =>
        { d with monC := d.monC.set c (control d.monC[c] (q == 1 || q == 2 || q == 4 || q == 5)) })) ∧
      (s.d.clus[c].owner ≠ some f → exec (.monitorControlWrite f (.cluster c) v) s = .next s) ∧
      (s.d.slots[slot].fn = f → ∃ t, exec (.monitorControlWrite f (.channel ch) v) s = .next t ∧ t.cores = s.cores ∧
        tabGet t.d.monM ch.val = some (control ((tabGet s.d.monM ch.val).getD .reset) (q == 3)) ∧
        ∀ j, j ≠ ch.val → tabGet t.d.monM j = tabGet s.d.monM j) ∧
      (s.d.slots[slot].fn ≠ f → exec (.monitorControlWrite f (.channel ch) v) s = .next s)) ∧
    (s.d.fns[f].iface = .error ∨ s.inFlr f = true → exec (.stackStatusWrite f k v) s = .next s ∧ exec (.monitorControlWrite f (.cluster c) v) s = .next s ∧
      exec (.monitorControlWrite f (.channel ch) v) s = .next s)


/-! ### The host link, peers, resets and heat (22) -/

namespace Sys2Proof.Stated

/-- A key pair that a slot may hold: not that of a context's area (log 12). -/
def OfSlot (key : KeyId) : Prop := ∀ n, key ≠ .area n

/-- The memory window of a function is open under a key (R425, R428). -/
def WindowOpen (f : FnId) (key : KeyId) (s : State) : Prop :=
  s.d.fns[f].hkey.getLsbD 12 = true ∧ s.d.fns[f].iface ≠ .error ∧ s.d.fns[f].hkey.setWidth 12 ≠ (0 : BitVec 12) ∧ OfSlot key ∧
  ∃ k, s.d.keySlot (s.d.fns[f].hkey.setWidth 12) = some k ∧ k.fn = some f ∧ k.key = key

/-- The window reaches a granule of the function; a secure one only in RUN and on the trusted stream (R425). -/
def WindowReaches (f : FnId) (trusted : Bool) (g : Fin 477) (s : State) : Prop :=
  s.d.grans[g].owner = some f ∧ (s.d.grans[g].sec = true → s.d.fns[f].iface = .run ∧ trusted = true)

/-- The n bytes from an address lie in one granule. -/
def InGranule (g : Fin 477) (off n : Nat) : Prop :=
  0 < n ∧ g.val * 2 ^ 30 ≤ off ∧ off + n ≤ (g.val + 1) * 2 ^ 30 ∧ off + n ≤ 512000000000

/-- Bytes are written at an address under a key (R390, R406, R415): they read so under that key, and no other byte changes but those of pages
whose scrub was pending. -/
def WrittenUnder (key : KeyId) (pa : Nat) (bs : List Byte) (s t : State) : Prop :=
  (∀ (i : Nat) (h : i < bs.length), t.d.byteAt ⟨key, none⟩ (pa + i) = bs[i]) ∧
  (∀ a, a < pa ∨ pa + bs.length ≤ a → s.d.pending a = false → t.d.mem.get a = s.d.mem.get a) ∧
  (∀ u, 64 * u + 64 ≤ pa ∨ pa + bs.length ≤ 64 * u → s.d.pending (64 * u) = false → t.d.tag u = s.d.tag u)

end Sys2Proof.Stated

/-- R390, R396, R405, R415, R425, R426, R428: the memory window writes and reads device memory under the key that HKEY names, where the function's window
reaches; elsewhere a read gives all ones and a write is discarded, and before a function-level reset completes all of it is (R433); OPA, OPB, HKEY and THERM take their writes as their registers have it. -/
def Sys2Proof.Stated.HostWindows : Prop :=
  ∀ (f : FnId) (trusted : Bool) (g : Fin 477) (off n : Nat) (bs : List Byte) (v : W64) (s : State),
    let x := s.d.fns[f]
    (s.inFlr f = true → exec (.hostMemoryWrite f off bs trusted) s = .next s ∧ exec (.hostMemoryRead f off n trusted) s = .next s ∧
      exec (.registerWrite f 0x8 v) s = .next s ∧ exec (.registerWrite f 0x10 v) s = .next s ∧ exec (.hkeyWrite f v) s = .next s ∧
      exec (.thermWrite f v) s = .next s) ∧
    (s.inFlr f = false →
      (∀ key, WindowOpen f key s → InGranule g off bs.length →
        (WindowReaches f trusted g s → s.d.locked off bs.length = false → s.d.gone off bs.length = false →
          ∃ t, exec (.hostMemoryWrite f off bs trusted) s = .next t ∧ WrittenUnder key off bs s t) ∧
        (¬ WindowReaches f trusted g s → exec (.hostMemoryWrite f off bs trusted) s = .next s)) ∧
      (∀ key, WindowOpen f key s → InGranule g off n →
        (WindowReaches f trusted g s → s.d.locked off n = false → ∃ (t : State) (bad : Bool),
          exec (.hostMemoryRead f off n trusted) s = .next t ∧
          t.d.resps = .hostData f ((upFrom off n).map fun a => s.d.byteAt ⟨key, none⟩ a) bad :: s.d.resps ∧
          (bad = true ↔ ∃ a, off ≤ a ∧ a < off + n ∧ (s.d.memPoisoned a 1 = true ∨ s.d.gone a 1 = true)) ∧
          (∀ a, s.d.pending a = false → t.d.mem.get a = s.d.mem.get a) ∧ t.cores = s.cores) ∧
        (¬ WindowReaches f trusted g s → Responds (.hostMemoryRead f off n trusted) (.hostData f (List.replicate n 0xFF) false) s)) ∧
      ((∀ k, s.d.keySlot (s.d.fns[f].hkey.setWidth 12) = some k → OfSlot k.key) → (∀ key, ¬ WindowOpen f key s) →
        exec (.hostMemoryWrite f off bs trusted) s = .next s ∧
        Responds (.hostMemoryRead f off n trusted) (.hostData f (List.replicate n 0xFF) false) s) ∧
      (x.iface ≠ .error → exec (.registerWrite f 0x8 v) s = .next (s.modD fun d => d.modFn f fun y => { y with opa := v }) ∧
        exec (.registerWrite f 0x10 v) s = .next (s.modD fun d => d.modFn f fun y => { y with opb := v }) ∧
        exec (.thermWrite f v) s = .next (s.modD fun d => { d with warn := d.warn && !v.getLsbD 8 })) ∧
      (x.iface = .error → exec (.registerWrite f 0x8 v) s = .next s ∧ exec (.registerWrite f 0x10 v) s = .next s ∧
        exec (.thermWrite f v) s = .next s)) ∧
    (x.iface = .error → s.d.launchRead f s.fresh off = 0xFF) ∧
    (x.iface ≠ .error → 128 ≤ off % 256 ∨ 16384 ≤ off → s.d.launchRead f s.fresh off = 0) ∧
    (∀ o, o % 8 ≠ 0 ∨ o = 0x18 ∨ (0x600 ≤ o ∧ o < 0x680) ∨ 0x13000 ≤ o → exec (.registerWrite f o v) s = .next s) ∧
    (∀ o size, size ≠ 8 ∨ o % 8 ≠ 0 → narrowWrite o size s = .next s) ∧
    (let owned := v.setWidth 12 ≠ (0 : BitVec 12) ∧ ∃ k, s.d.keySlot (v.setWidth 12) = some k ∧ k.fn = some f;
      (x.iface = .unlocked → s.inFlr f = false → owned → exec (.hkeyWrite f v) s = .next (s.modD fun d => d.modFn f fun y => { y with hkey := v.setWidth 13 })) ∧
      (x.iface ≠ .unlocked ∨ ¬ owned → exec (.hkeyWrite f v) s = .next s))

/-- R317, R318, R336, R411, R421, R426, R427: what a read of each register of the configuration window returns. -/
def Sys2Proof.Stated.ConfigurationReads : Prop :=
  ∀ (d : Dev) (f : FnId) (q : Fin 64) (m : Fin 16) (k : Fin 8) (c : Fin 32) (ch : Fin 256) (i : Fin 16) (o : Nat),
    let x := d.fns[f]
    let r := d.cfgRead f
    (∀ n, n ≠ 8 → d.cfgBytes f o n = List.replicate n 0xFF) ∧ d.cfgBytes f o 8 = bytesOf 8 (r o).toNat ∧
    (o % 8 ≠ 0 → r o = BitVec.allOnes 64) ∧ r 0 = x.cmd ∧ r 0x8 = x.opa ∧ r 0x10 = x.opb ∧ r 0x18 = x.status ∧ r 0x100 = x.err ∧
    r 0x108 = x.hkey.setWidth 64 ∧ (d.tmax.toNat + 256 * bit d.warn = (r 0x110).toNat) ∧
    (let b := r (0x200 + 8 * q.val)
     let y := d.qs[q]
     (y.fn ≠ f → b = 0 ∧ r (0x400 + 8 * q.val) = 0) ∧
     (y.fn = f → b.getLsbD 0 = y.en ∧ b.extractLsb' 1 3 = y.prio ∧ b.extractLsb' 4 4 = y.slot ∧ (b.extractLsb' 8 3).toNat = y.fn.val ∧
       b.getLsbD 11 = y.erg ∧ b.extractLsb' 12 12 = y.ctx ∧ b.toNat < 2 ^ 24 ∧
       (y.recs.length < 64 → let z := r (0x400 + 8 * q.val)
         (z.extractLsb' 0 6).toNat = y.recs.length ∧ z.getLsbD 6 = y.ovf ∧ z.getLsbD 7 = y.err ∧ z.toNat < 256))) ∧
    (let b := r (0x600 + 8 * m.val)
     let y := d.slots[m]
     b.extractLsb' 0 10 = y.minbw ∧ b.extractLsb' 10 8 = y.weight ∧ b.extractLsb' 18 8 = y.dw ∧ (b.extractLsb' 26 3).toNat = y.fn.val ∧
       b.getLsbD 29 = y.valid ∧ b.toNat < 2 ^ 30) ∧
    (let b := r (0x700 + 8 * k.val)
     let y := d.hbm[k]
     b.extractLsb' 0 32 = y.rch ∧ (b.extractLsb' 32 16).toNat = min (y.pool.length / 256) 0xFFFF ∧
       (y.cec.toNat ≤ 255 → y.uec.toNat ≤ 255 → (b.extractLsb' 48 8).toNat = y.cec.toNat ∧ (b.extractLsb' 56 8).toNat = y.uec.toNat)) ∧
    (let w := r (0x1000 + 256 * c.val + 24 + 8 * i.val)
     (d.clus[c].owner = some f → w = (d.monC[c].bins[i]).setWidth 64 ∧ r (0x1000 + 256 * c.val) = d.monC[c].qty.setWidth 64 ∧
       r (0x1008 + 256 * c.val) = d.monC[c].mn.setWidth 64 ∧ r (0x1010 + 256 * c.val) = d.monC[c].mx.setWidth 64) ∧
     (d.clus[c].owner ≠ some f → w = 0)) ∧
    (let w := r (0x3000 + 256 * ch.val)
     (∀ y, tabGet d.monM ch.val = some y → (y.qty.toNat % 8 = 3 ∧ d.slots[Fin.ofNat 16 (y.qty.toNat / 8)].fn = f → w = y.qty.setWidth 64) ∧
       (y.qty.toNat % 8 ≠ 3 → w = 0)) ∧
     (tabGet d.monM ch.val = none → w = 0))

/-- R268, R280, R286, R405, R409: a peer's read, write or atomic acts at its place in this device's memory under the key it names;
an atomic whose unit is poisoned, and an access to a lost page, is not performed; a partial joins the round of its window. The readings and choices of log 7,
51, 76 are in it. -/
def Obligations.PeerAccesses : Prop :=
  (∀ (dev pa n : Nat) (bs : List Byte) (kn : BitVec 12) (k : KeySlot) (s : State), s.d.keySlot kn = some k → OfSlot k.key →
    (pa + n ≤ 512000000000 → s.d.locked pa n = false → s.d.gone pa n = false →
      ∃ t, exec (.ergPeerAccess dev (.read pa n kn)) s = .next t ∧
        t.d.resps = .peerData dev (s.d.readMem ⟨k.key, none⟩ pa n) (s.d.memPoisoned pa n) :: s.d.resps ∧
        (∀ a, s.d.pending a = false → t.d.mem.get a = s.d.mem.get a) ∧ t.cores = s.cores) ∧
    (0 < bs.length → pa + bs.length ≤ 512000000000 → s.d.locked pa bs.length = false → s.d.gone pa bs.length = false →
      ∃ t, exec (.ergPeerAccess dev (.write pa bs kn)) s = .next t ∧ WrittenUnder k.key pa bs s t) ∧
    (pa + n ≤ 512000000000 → s.d.locked pa n = false → s.d.gone pa n = true →
      Responds (.ergPeerAccess dev (.read pa n kn)) (.peerData dev [] true) s) ∧
    (pa + bs.length ≤ 512000000000 → s.d.locked pa bs.length = false → s.d.gone pa bs.length = true →
      Responds (.ergPeerAccess dev (.write pa bs kn)) (.peerData dev [] true) s)) ∧
  (∀ (dev pa : Nat) (op : RedOp) (w64 : Bool) (v cmp : W64) (kn : BitVec 12) (k : KeySlot) (s : State), s.d.keySlot kn = some k → OfSlot k.key →
    let n := if w64 then 8 else 4
    pa % n = 0 → pa + n ≤ 512000000000 → s.d.locked pa n = false →
    let old := s.d.readMem ⟨k.key, none⟩ pa n
    (s.d.gone pa n = true ∨ s.d.memPoisoned pa n = true → Responds (.ergPeerAccess dev (.atomic op pa w64 v cmp kn)) (.peerData dev [] true) s) ∧
    (s.d.gone pa n = false → s.d.memPoisoned pa n = false → ∃ t, exec (.ergPeerAccess dev (.atomic op pa w64 v cmp kn)) s = .next t ∧
      t.d.resps = .peerData dev old false :: s.d.resps ∧
      WrittenUnder k.key pa (bytesOf n (redApply op w64 (BitVec.ofNat 64 (natOf old)) v cmp).toNat) s t)) ∧
  (∀ (dev loc : Nat) (op : RedOp) (w64 : Bool) (kn : BitVec 12) (v : W64) (s : State) (w : Window),
    s.d.locs.find? (fun w => w.loc == loc) = some w → dev ∈ w.parts → dev ≠ thisDevice → (∀ p ∈ w.partials, p.1 ≠ dev) →
    ∃ t, exec (.ergPeerAccess dev (.partial_ loc op w64 kn v)) s = .next t ∧
      t.d.locs.find? (fun w => w.loc == loc) = some
        (if w.partials.any (fun p => p.1 == thisDevice) then { w with partials := w.partials ++ [(dev, v)] }
        else { w with partials := w.partials ++ [(dev, v)], op := op, w64 := w64, key := kn }) ∧ t.cores = s.cores ∧ t.d.mem = s.d.mem)

/-- R8, R390, R393, R414, R415, R430, R431, R433, R434: a device reset leaves only what fuses, flash and the retirement record hold, with
every byte of device memory reading zero under slot 0; the image of slot A is in force where it is accepted, else that of slot B, else the
device stays in reset; TMAX follows the sensor; TWARN stops admission until the device is 5 degrees below it; TTRIP moves every
interface to ERROR and stops every core. -/
def Sys2Proof.Stated.ResetsAndHeat : Prop :=
  (∀ (k : ResetKind) (s : State), ∃ t, exec (.deviceReset k) s = .next t ∧ t.cores = State.reset.cores ∧
    (∀ f : FnId, t.d.fns[f] = { State.reset.d.fns[f] with nrand := s.d.fns[f].nrand }) ∧
    t.d.ctxs = [] ∧ t.d.keys = State.reset.d.keys ∧ t.d.cars = [] ∧ t.d.recs = [] ∧ t.d.qs = State.reset.d.qs ∧ t.d.slots = State.reset.d.slots ∧
    t.d.grans = State.reset.d.grans ∧ (∀ c : Fin 32, t.d.clus[c] = ⟨none, false, s.d.clus[c].retired⟩) ∧
    (∀ j : Fin 8, t.d.hbm[j].rch = s.d.hbm[j].rch ∧ t.d.hbm[j].pool = s.d.hbm[j].pool ∧ t.d.hbm[j].cec = 0 ∧ t.d.hbm[j].uec = 0) ∧
    t.d.lost = s.d.lost ∧
    ((s.d.moves.map Prod.fst).Nodup → ∀ p, tabGet t.d.moved p = (tabGet s.d.moves p).orElse fun _ => tabGet s.d.moved p) ∧
    t.d.resps = s.d.resps ∧
    (let b := s.d.boot
     let accepted := fun (i : Image) => i.ecdsaOk = true ∧ i.lmsOk = true ∧ i.ecdsa = b.ecdsa ∧ i.lms = b.lms ∧ b.counter.toNat ≤ i.version
     (∀ i, b.slotA = some i → accepted i → t.d.inReset = false ∧ t.d.boot = { b with image := some i }) ∧
     (∀ i, (∀ a, b.slotA = some a → ¬ accepted a) → b.slotB = some i → accepted i →
       t.d.inReset = false ∧ t.d.boot = { b with image := some i }) ∧
     ((∀ a, b.slotA = some a → ¬ accepted a) → (∀ a, b.slotB = some a → ¬ accepted a) →
       t.d.inReset = true ∧ t.d.boot = { b with image := none })) ∧
    (∀ a, a < 512000000000 → t.d.pending a = true ∧ t.d.byteAt ⟨.slot0, none⟩ a = 0) ∧
    (∀ a, 512000000000 ≤ a → t.d.mem.get a = s.d.mem.get a)) ∧
  (∀ (x : BitVec 8) (s : State),
    (x.toNat < 110 → (x.toNat < 100 ∨ 100 ≤ s.d.tmax.toNat) → (95 < x.toNat ∨ s.d.admHold = false) →
      move (.sensor x) s = .next (s.modD fun d => { d with tmax := x })) ∧
    (100 ≤ x.toNat → ∃ t, exec (.twarnReached x) s = .next t ∧ t.d.tmax = x ∧ t.d.warn = true ∧ t.cores = s.cores ∧ t.d.mem = s.d.mem ∧
      (∀ q, t.mayAdmit q = false) ∧ (s.d.warn = false → ∀ f : FnId, (f, 3) ∈ t.d.msix) ∧ (s.d.warn = true → t.d.msix = s.d.msix)) ∧
    (x.toNat ≤ 95 → exec (.tmaxFallsBelowTwarn x) s = .next (s.modD fun d => { d with tmax := x, admHold := false })) ∧
    (110 ≤ x.toNat → ∃ t, exec (.ttripReached x) s = .next t ∧ t.d.tmax = x ∧ t.d.warn = true ∧ t.d.inReset = true ∧ t.d.mem = s.d.mem ∧
      (∀ f : FnId, t.d.fns[f].iface = .error ∧ t.d.fns[f].err.getLsbD 2 = true ∧ t.d.fns[f].err.extractLsb' 3 3 = 5) ∧
      (∀ c, (t.core c).run = none ∧ (t.core c).car = none ∧ (t.core c).sup = false) ∧
      (∀ j k, t.d.keySlot j = some k → k.sec = true → k.fn = none)))


/-! ### Encodings, an invariant and reset (03, 07, 16, 22) -/

/-- R55, R56, R57, R63, R64, R66, R68, R69, R77, R80, R82, R86: decode of encode is the identity: on every well-formed slot
operation, read at the level it belongs to, with every operand at every value its encoding admits, its control word and its
modifiers among them, and on every micro-word; so two operations of a slot with the same words are one. The readings and
choices of log 11 are in it. -/
def Obligations.DecodeOfEncode : Prop :=
  (∀ (i : Instr) (x : SlotOp), i.toSlot = some x → i.wf = true → x.sup = false → decode (encode i) = some i) ∧
  (∀ (x : SlotOp), x.wf = true → decodeSlot x.sup x.slot x.body x.ctl = some x) ∧
  (∀ (x y : SlotOp), x.wf = true → y.wf = true → x.sup = y.sup → x.slot = y.slot → x.body = y.body → x.ctl = y.ctl → x = y) ∧
  (∀ (u : Micro), decodeMicro (encodeMicro u) = some u) ∧
  (∀ (c : CoreId) (u : Micro), (u.toInstr c).toMicro = some u ∧ encode (u.toInstr c) = bytesOf 8 (encodeMicro u).toNat)

/-- R55, R57, R63, R69, R77, R80, R82, R86: words written out in the spec's own worked encodings decode to the operations they stand for. -/
def Obligations.SpecWordsDecode : Prop :=
  decode (bytesOf 4 0x00000100 ++ bytesOf 8 0x0010080000022070) =
    some (.ld ⟨true, true, 1, .glob, some 4, 0, 8, 1, ⟨0, false, none⟩⟩) ∧
  decode (bytesOf 4 0x00000001 ++ bytesOf 8 0x0010010104245001 ++ bytesOf 32 0x07077101) =
    some (.add ⟨.s, 1, 0, 10, false, .reg 9, .imm, .zero, ⟨0, false, none⟩, 1, 1,
      { CtlWord.plain with fa := .i64, fb := .i64, fd := .i64 }⟩) ∧
  decode (bytesOf 4 0x00000004 ++ bytesOf 8 0x0000010236301200 ++ bytesOf 32 0x0C0CC601) =
    some (.vadd ⟨.va, 0, 1, 2, false, .latch 12, .latch 13, .zero, ⟨0, false, none⟩, 0, 6,
      { CtlWord.plain with fa := .f32, fb := .f32, fd := .f32 }⟩) ∧
  decode (bytesOf 4 0x00000040 ++ bytesOf 8 0x0080A00000A0440C) =
    some (.mxCall ⟨12, 0, .loadUse, 4, false, 80, ⟨0, false, none⟩, some (2, 0x80)⟩) ∧
  decode (bytesOf 4 0x00000400 ++ bytesOf 8 0x0000280000022158) =
    some (.atAdd ⟨true, false, 5, .glob, some 4, 0, 40, 0, ⟨0, false, none⟩⟩) ∧
  decode (bytesOf 4 0x00001000 ++ bytesOf 6 0x00081D000C10) =
    some (.cpCopy ⟨.fe, .loc, 6, 0, .glob, 7, 8, ⟨0, false, none⟩⟩) ∧
  decode (bytesOf 4 0x00004000 ++ bytesOf 6 0x000000800083) = some (.barExpectImm ⟨2, 0, 0, 2, ⟨0, false, none⟩⟩) ∧
  decodeMicro 0x1040D0 = some (.mma .e4m3 ⟨3, false, 0, .glob, 0, 2, false, 0, false, false⟩)

/-- R336: from every state in which the minima of the valid slots sum to at most 960 and no valid slot has DW 0, every step
leaves it so. The readings and choices of log 69 are in it. -/
def Obligations.SlotLimitsAreKept : Prop := State.Kept State.slotsInLimits

/-- R17: from every state in which g0 of every core reads all ones, every step leaves it so: no write, landing, restore or start of a run
changes it. -/
def Obligations.GuardZeroIsKept : Prop := State.Kept State.g0Ones

/-- R246, R250, R382, R417, R423 (the form of a store is the model's own): from every state in which the byte stores of the machine, those
that checkpoints hold among them, are in their canonical form, every step leaves them so. -/
def Obligations.StoresStayCanonical : Prop := State.Kept State.memoriesWf

/-- R8, R17, R225, R317, R328, R336, R382, R390, R393, R414, R433: what reset leaves: no assignment, every mask 0, every
interface unlocked, no context, every granule pending scrub, no slot in use, guard g0 all ones, and every store in its
canonical form with nothing listed. The readings and choices of log 1, 2, 13 are in it. -/
def Obligations.ResetState : Prop :=
  let s := State.reset
  s.slotsInLimits ∧ s.g0Ones ∧ s.memoriesWf ∧ s.d.mem = [] ∧ s.d.ctxs = [] ∧ s.d.cars = [] ∧ s.d.recs = [] ∧
  (∀ f : FnId, s.d.fns[f].iface = .unlocked ∧ s.d.fns[f].mask = 0 ∧ s.d.fns[f].err = 0 ∧ s.d.fns[f].hkey = 0) ∧
  (∀ c : Fin 32, s.d.clus[c].owner = none) ∧ (∀ g : Fin 477, s.d.grans[g].owner = none) ∧
  (∀ pa, pa < 512000000000 → s.d.pending pa = true) ∧ (∀ q : Fin 64, s.d.qs[q].en = false ∧ s.d.qs[q].recs = []) ∧
  (∀ m : Fin 16, s.d.slots[m].valid = false) ∧ (∀ k : BitVec 12, k ≠ 0 → s.d.keySlot k = none) ∧
  (∀ c : CoreId, (s.core c).car = none ∧ (s.core c).run = none ∧ (s.core c).w.aown = 0 ∧ (s.core c).q.ld = [] ∧ (s.core c).q.st = [])

/-! ### Encodings of guard operations (05) -/

/-- R67, R92, R123, R124: an operation whose fields its encoding does not admit traps ENCODING; gand, gor, gxor, gandn and gtos name guards
0 to 15 in their sources, the half of gtos and stog is 0 or 1, and the compares take no SAT. -/
def Sys2Proof.Stated.GuardEncodings : Prop :=
  (∀ (x : SlotOp) (s : State), x.encOk = false → s.checks s.cur [(x.slot, x)] = some ⟨.encoding, x.slot.val, 0⟩) ∧
  (∀ (o : AluOp), ∀ t ∈ [AluTag.gand, .gor, .gxor, .gandn], o.encOk t = true →
    ∃ a b : Fin 16, o.a = .reg (BitVec.ofNat 6 a.val) ∧ o.b = .reg (BitVec.ofNat 6 b.val)) ∧
  (∀ (o : AluOp), o.encOk .gtos = true → o.imm.toNat < 2 ∧ ∃ a : Fin 16, o.a = .reg (BitVec.ofNat 6 a.val)) ∧
  (∀ (o : AluOp), o.encOk .stog = true → o.imm.toNat < 2) ∧
  (∀ (o : AluOp), ∀ t ∈ [AluTag.cmpEq, .cmpNe, .cmpLt, .cmpLe], o.encOk t = true → o.cw.sat = .none)

/-- R122: the one quotient that leaves an i format is −2^(w−1) / −1: under SAT 00 it becomes −2^(w−1), under SAT 01 or 10 2^(w−1) − 1;
the matching remainder is 0. -/
def Sys2Proof.Stated.LeastQuotient : Prop :=
  ∀ (o : AluOp), o.cw.fd.isI = true → o.cw.post ≠ .clamp →
    let a : Int := -(2 ^ (o.cw.fd.width - 1))
    (o.cw.sat = .none → (finishS o (a.tdiv (-1))).val = BitVec.ofInt 64 a) ∧
    (o.cw.sat ≠ .none → (finishS o (a.tdiv (-1))).val = BitVec.ofInt 64 (2 ^ (o.cw.fd.width - 1) - 1)) ∧
    (finishS o (a - a.tdiv (-1) * (-1))).val = 0

/-! ### Statements that take several of the above together -/

/-- R39, R58, R60, R61, R92: a bundle that may issue issues, at once or after its hold; one that is not fetched, does not
expand or fails a check traps. The readings and choices of log 25, 40, 43 are in it. -/
def Sys2Proof.Stated.BundlesIssueOrTrap : Prop :=
  Stated.BundlesIssue ∧ Stated.BundlesTrap

/-- R18, R39, R58, R60, R61, R66, R92, R344: an operation that fails a check of its issue traps and is not performed, and one that its
guard squashes only makes its arrival; a bundle that may issue issues. The readings and choices of log 15, 16, 25, 27, 40, 43 are in
it. -/
def Obligations.IssueOutcomes : Prop :=
  Stated.FailedChecksTrap ∧ Stated.SquashedOperationsOnlyArrive ∧ Stated.BundlesIssueOrTrap

/-- R112, R118, R120, R121, R125: what each integer and phasor operation of the S slot leaves, and when. The readings and
choices of log 18 are in it. -/
def Obligations.ScalarResults : Prop :=
  Stated.ScalarIntegerResults ∧ Stated.ScalarPhasorsAndConversions

/-- R122, with the bringing of an exact result into FD under SAT that it uses (R118): division truncates toward zero, a
division by zero gives all ones or a and sets DIV0, and no division traps. -/
def Obligations.DivisionAndOverflow : Prop :=
  Stated.DivisionResults ∧ Stated.LeastQuotient ∧ Stated.IntegerResultsWrapOrSaturate

/-- R123, R124: the compares write every bit of their guard with the truth of a and b, the guard operations work on all 128
bits or on one half, g0 takes no write, guard names rotate, and the encodings that R124 refuses trap. -/
def Obligations.GuardResults : Prop :=
  Stated.ScalarComparesWriteGuards ∧ Stated.GuardOperations ∧ Stated.GuardEncodings ∧ Stated.RegisterNames

/-- R60: a step that issues the bundle at the program counter performs its operations; where the bundle is the one operation
x, the step is exec of x on the state after the issue. The readings and choices of log 5 are in it. -/
def Obligations.StepRunsTheOperationAtThePc : Prop :=
  Stated.StepRunsTheBundleAtThePc ∧ Stated.StepIsExecOfTheDecodedOperation

/-- R15 to R19, R350: a result is written at the end of its cycle, to its destination alone. The readings and choices of log 5
are in it. -/
def Obligations.ResultsReachTheirDestination : Prop :=
  Stated.ResultsAreWritten ∧ Stated.WriteBackDestinations

/-- R27, R28, R29, R32: returned data is written in its cycle, kept in the oasis or held at the port; a landing without its
data, or a bank that is not complete, freezes the core. The readings and choices of log 9 are in it. -/
def Obligations.DataReturnsAndFreezes : Prop :=
  Stated.ReturnedDataGoesToTheOasis ∧ Stated.LateDataFreezesTheCore

/-- R27, R133, R209: a landing writes its register and shifts its latch; the frame that a ret pops transfers, or traps where
its target is odd. The readings and choices of log 9 are in it. -/
def Obligations.LandingsAndPoppedFrames : Prop :=
  Stated.LandingsWriteTheirRegister ∧ Stated.PoppedFramesTransfer

/-- R131, R132, R134: br and jr transfer; loop.br counts LC down, rotates RB, writes the stage guard and branches, or falls
through with LC 0. -/
def Obligations.BranchesAndLoops : Prop :=
  Stated.BranchesTransfer ∧ Stated.LoopBranchesRotate

/-- R36, R131, R132, R133: calls push a frame and transfer, returns pop one and transfer back. The readings and choices of log
31 are in it. -/
def Obligations.CallsAndReturns : Prop :=
  Stated.CallsPushFrames ∧ Stated.ReturnsPopFrames

/-- R22, R126 to R130, R196, R197, R346, R365: mfsw, mtsw, mov mp and mfmp move words; a status word keeps the bits it defines, and no
other word changes; MROW reads as the progress of the oldest call, and a change of the array's owner zeroes what is dirty. -/
def Obligations.StatusAndParameterWords : Prop :=
  Stated.StatusWordMoves ∧ Stated.MatrixParametersMove ∧ Stated.StatusWordsKeepTheirBits ∧ Stated.ArrayStatusWords

/-- R139, R140, R142, R178, R347: the supervisor reads and writes control words, routine entries and micro-words; resume holds
issue; fmask.rd and fmask.wr read and write a mask. The readings and choices of log 35 are in it. -/
def Obligations.SupervisorStoreOperations : Prop :=
  Stated.SupervisorOperationsHold ∧ Stated.StoreOperations ∧ Stated.ResumeHolds ∧ Stated.FeatureMasks

/-- R141, R351, R354, R365: bank.save and bank.load move banks and latches, ctx.save and ctx.load move the stores of a
context. The readings and choices of log 12, 35 are in it. -/
def Obligations.BankAndAreaOperations : Prop :=
  Stated.BankOperations ∧ Stated.ContextAreaOperations

/-- R143 to R161: what each vector operation leaves for its destination and its latch group, extracts and bank rows among
them. The readings and choices of log 17, 24 are in it. -/
def Obligations.VectorOperationResults : Prop :=
  Stated.VectorResults ∧ Stated.ExtractsAndBankRows

/-- R117, R151: a vector compare writes the guard bits of the bytes of each element with its truth, and leaves those above W.
-/
def Obligations.VectorCompareResults : Prop :=
  Stated.VectorComparesWriteGuards ∧ Stated.CompareGuardLanes

/-- R180, R181, R184: mu.adv, mu.loop and mu.end move the parameters and the micro-program counter; mu.lat loads rows of a
latch half. The readings and choices of log 53 are in it. -/
def Obligations.ArrayControlAndLatchLoads : Prop :=
  Stated.ArrayControlWords ∧ Stated.LatchLoads

/-- R173, R180, R193, R195: a bank is complete when its block operation drains, a call leaves its queue with its arrival, and
operand rows arrive in order. The readings and choices of log 42 are in it. -/
def Obligations.ArrayEventsAndRows : Prop :=
  Stated.ArrayEvents ∧ Stated.OperandRowsArrive

/-- R35, R201, R202: LD and ST operations enter their queue with the address and data of their issue; spill accesses are
performed at issue. The readings and choices of log 49 are in it. -/
def Obligations.MemoryOperationsEnter : Prop :=
  Stated.MemoryOperationsEnterTheirQueue ∧ Stated.SpillAccesses

/-- R210, R211, R286, R287: an atomic is one read and write at its home; a reduction window folds the contributions of its
round and merges once. The readings and choices of log 21, 51 are in it. -/
def Obligations.AtomicsAndReductions : Prop :=
  Stated.AtomicsArePerformed ∧ Stated.ReductionWindows

/-- R213 to R218: cp.copy, cp.fill and cp.close enter their queue; a copy moves piece by piece, sets its full bits or raises
its interrupt, and frees its entry. The readings and choices of log 22, 55 are in it. -/
def Obligations.Copies : Prop :=
  Stated.CopiesEnterTheirQueue ∧ Stated.CopiesMoveInPieces

/-- R219 to R224: a barchan shuffle enters its queue, runs in its turn, and leaves at each place the element its form gives.
The readings and choices of log 55 are in it. -/
def Obligations.Shuffles : Prop :=
  Stated.ShufflesRun ∧ Stated.ShuffleElements

/-- R225 to R231: arrivals, bar.init and bar.expect change an object as their rules have it; bar.wait passes or holds;
bar.test reads the object. The readings and choices of log 5 are in it. -/
def Obligations.Barriers : Prop :=
  Stated.BarrierObjects ∧ Stated.BarrierWaits

/-- R342, R343, R345, R347, R349, R395: the entry of the supervisor, by a stop of a user stream and by a cause of the supervisor's own. The
readings and choices of log 12, 104 are in it. -/
def Obligations.SupervisorEntry : Prop :=
  Stated.TakingAStop ∧ Stated.SupervisorCauses

/-- R345, R349, R352 to R361, R366: a pending stop is taken at a boundary with its records, and resume restores what the area
holds and puts recorded operations back. The readings and choices of log 12, 19, 20, 36, 37, 84, 103 are in it. -/
def Obligations.StopsAndResumes : Prop :=
  Stated.StopsAreTaken ∧ Stated.RecordsAreLeft ∧ Stated.ResumesRestore ∧ Stated.RecordsAreReissued

/-- R387, R389, R390, R428: the commands on contexts and on keys, each with what it does and the refusals of its conditions.
The readings and choices of log 3, 70 are in it. -/
def Obligations.ContextAndKeyCommands : Prop :=
  Stated.ContextCommands ∧ Stated.KeyCommands

/-- R8, R399, R401, R416, R430, R432, R433, R434: receipts and attestation, debug gating, function-level and device resets,
and the thermal limits. The readings and choices of log 4, 6, 71, 72, 76 are in it. -/
def Obligations.ReceiptsDebugAndResets : Prop :=
  Stated.ReceiptsDebugAndReset ∧ Stated.ResetsAndHeat

/-- R326, R393, R409, R410, R412, R413: the retirement of channels, the moves of their pages, and the retirement of clusters.
The readings and choices of log 74, 76 are in it. -/
def Obligations.ChannelsAndClustersRetire : Prop :=
  Stated.ChannelsRetire ∧ Stated.ClustersRetire

/-- R317, R318, R336, R390, R411, R421, R425 to R428: the memory window of a function, and the registers of its configuration
window. The readings and choices of log 3, 6 are in it. -/
def Obligations.HostWindowsAndRegisters : Prop :=
  Stated.HostWindows ∧ Stated.ConfigurationReads
end

