-- ==== Sys2Proof/Laws/Encoding.lean ====
section
/-! SUPPORT. Layouts and bytes read back what was put into them, and every code of a field names what it stands for. -/

namespace Sys2Proof

/-- A value for each field of a layout, each within its width. -/
def Fits : List Nat → List Nat → Prop
  | [], [] => True
  | w :: ws, v :: vs => v < 2 ^ w ∧ Fits ws vs
  | _, _ => False

/-- Fields that fit their layout are read back from its word. -/
theorem unpack_pack (ws : List Nat) : ∀ vs, Fits ws vs → unpack ws (pack ws vs) = vs := by
  induction ws with
  | nil => intro vs h; cases vs <;> simp_all [Fits, unpack]
  | cons w ws ih =>
    intro vs h
    cases vs with
    | nil => simp [Fits] at h
    | cons v vs =>
      obtain ⟨hv, hr⟩ := h
      have p : 0 < 2 ^ w := Nat.two_pow_pos w
      simp only [unpack, pack]
      rw [Nat.add_mul_mod_self_left, Nat.mod_eq_of_lt hv, Nat.add_mul_div_left _ _ p, Nat.div_eq_of_lt hv, Nat.zero_add, ih vs hr]

/-- The word of fields that fit is within the layout's width. -/
theorem pack_lt (ws : List Nat) : ∀ vs, Fits ws vs → pack ws vs < 2 ^ ws.sum := by
  induction ws with
  | nil => intro vs h; cases vs <;> simp_all [Fits, pack]
  | cons w ws ih =>
    intro vs h
    cases vs with
    | nil => simp [Fits] at h
    | cons v vs =>
      obtain ⟨hv, hr⟩ := h
      have := ih vs hr
      simp only [pack, List.sum_cons, Nat.pow_add]
      calc v + 2 ^ w * pack ws vs < 2 ^ w + 2 ^ w * pack ws vs := by omega
        _ = 2 ^ w * (pack ws vs + 1) := by ring
        _ ≤ 2 ^ w * 2 ^ ws.sum := Nat.mul_le_mul_left _ this

theorem bit_lt (b : Bool) : bit b < 2 ^ 1 := by cases b <;> simp [bit]

@[simp] theorem bit_eq_one (b : Bool) : (bit b == 1) = b := by cases b <;> rfl

@[simp] theorem length_bytesOf (n v : Nat) : (bytesOf n v).length = n := by
  induction n generalizing v with
  | zero => rfl
  | succ n ih => simp [bytesOf, ih]

/-- A number is read back from its bytes, as far as they go. -/
theorem natOf_bytesOf (n v : Nat) : natOf (bytesOf n v) = v % 256 ^ n := by
  induction n generalizing v with
  | zero => simp [bytesOf, natOf, Nat.mod_one]
  | succ n ih =>
    have h : v % 256 ^ (n + 1) = v % 256 + 256 * (v / 256 % 256 ^ n) := by rw [Nat.pow_succ', Nat.mod_mul]
    rw [bytesOf, natOf, ih, BitVec.toNat_ofNat, h]

@[simp] theorem Fmt.ofCode_code (f : Fmt) : Fmt.ofCode f.code = f := by cases f <;> rfl
theorem Fmt.code_lt (f : Fmt) : f.code < 2 ^ 4 := by cases f <;> decide

@[simp] theorem Sat.ofCode_code (x : Sat) : Sat.ofCode x.code = some x := by cases x <;> rfl
theorem Sat.code_lt (x : Sat) : x.code < 2 ^ 2 := by cases x <;> decide

@[simp] theorem Post.ofCode_code (x : Post) : Post.ofCode x.code = some x := by cases x <;> rfl
theorem Post.code_lt (x : Post) : x.code < 2 ^ 8 := by cases x <;> decide

@[simp] theorem Space.ofCode_code (x : Space) : Space.ofCode x.code = some x := by cases x <;> rfl
theorem Space.code_lt (x : Space) : x.code < 2 ^ 3 := by cases x <;> decide

@[simp] theorem LatchMode.ofCode_code (x : LatchMode) : LatchMode.ofCode x.code = some x := by cases x <;> rfl
@[simp] theorem CpMode.ofCode_code (x : CpMode) : CpMode.ofCode x.code = some x := by cases x <;> rfl
@[simp] theorem cpTagOf_code (x : CpTag) : cpTagOf x.code = some x := by cases x <;> rfl

theorem syTagOf_code (x : SyTag) : syTagOf (x == .syYieldPark) x.code = some x := by cases x <;> rfl

@[simp] theorem Src.ofCode_code (x : Src) : Src.ofCode x.code = some x := by
  cases x with
  | reg n => simp [Src.code, Src.ofCode, n.isLt]
  | latch n =>
    have h := n.isLt
    have a : ¬ 0x80 + n.toNat < 0x40 := by omega
    have b : 0x80 + n.toNat ≠ 0x40 ∧ 0x80 + n.toNat ≠ 0x41 ∧ 0x80 + n.toNat ≠ 0x42 ∧ 0x80 + n.toNat ≠ 0x43 := by omega
    have c : 0x80 ≤ 0x80 + n.toNat ∧ 0x80 + n.toNat < 0x90 := by omega
    change (if 0x80 + n.toNat < 0x40 then _ else if 0x80 + n.toNat = 0x40 then _ else if 0x80 + n.toNat = 0x41 then _
      else if 0x80 + n.toNat = 0x42 then _ else if 0x80 + n.toNat = 0x43 then _
      else if 0x80 ≤ 0x80 + n.toNat ∧ 0x80 + n.toNat < 0x90 then some (Src.latch (BitVec.ofNat 4 (0x80 + n.toNat - 0x80))) else none) = _
    rw [if_neg a, if_neg b.1, if_neg b.2.1, if_neg b.2.2.1, if_neg b.2.2.2, if_pos c, Nat.add_sub_cancel_left,
      BitVec.ofNat_toNat, BitVec.setWidth_eq]
  | _ => rfl

theorem arrOf_code (x : Option (BitVec 4)) : arrOf (arrCode x) = some x := by
  cases x with
  | none => rfl
  | some b => simp [arrCode, arrOf]

theorem arrCode_lt (x : Option (BitVec 4)) : arrCode x < 2 ^ 5 := by
  cases x with
  | none => simp [arrCode]
  | some b =>
    have := b.isLt
    simp only [arrCode]
    omega

@[simp] theorem Pre.ofCode_code (p : Pre) : Pre.ofCode p.code = p := by
  have h : Fits preLayout [bit p.neg, bit p.abs, bit p.ext, bit p.bc, p.el.toNat] :=
    ⟨bit_lt _, bit_lt _, bit_lt _, bit_lt _, p.el.isLt, trivial⟩
  unfold Pre.ofCode Pre.code
  rw [unpack_pack _ _ h]
  simp

/-- The S-slot and vector rows of the operation map name their mnemonics back. -/
theorem sTagOf_row (t : AluTag) (h : t.row.vec = false) : brTagOf t.row.core = none ∧ sTagOf t.row.core = some t := by
  cases t <;> first | exact ⟨rfl, rfl⟩ | (simp [AluTag.row] at h)

theorem vTagOf_row (t : AluTag) (h : t.row.vec = true) : vTagOf t.row.core = some t := by
  cases t <;> first | rfl | (simp [AluTag.row] at h)

end Sys2Proof
end

