-- ==== Sys2Proof/Laws/State.lean ====
section
/-! SUPPORT. What each update of the state leaves: one lemma per field and update, so that no proof unfolds a record update. -/

namespace Sys2Proof.Machine
open Sys2Proof

/-! ### The state -/

@[simp] theorem State.modD_cores (s : State) (g : Dev → Dev) : (s.modD g).cores = s.cores := rfl
@[simp] theorem State.setCore_d (s : State) (c : CoreId) (k : Core) : (s.setCore c k).d = s.d := rfl
@[simp] theorem State.modCore_d (s : State) (c : CoreId) (g : Core → Core) : (s.modCore c g).d = s.d := rfl
@[simp] theorem State.modMe_d (s : State) (g : Core → Core) : (s.modMe g).d = s.d := rfl
@[simp] theorem State.setCore_cur (s : State) (c : CoreId) (k : Core) : (s.setCore c k).cur = s.cur := rfl
@[simp] theorem State.modCore_cur (s : State) (c : CoreId) (g : Core → Core) : (s.modCore c g).cur = s.cur := rfl
@[simp] theorem State.modMe_cur (s : State) (g : Core → Core) : (s.modMe g).cur = s.cur := rfl
@[simp] theorem State.modD_cur (s : State) (g : Dev → Dev) : (s.modD g).cur = s.cur := rfl
@[simp] theorem State.setCore_agenda (s : State) (c : CoreId) (k : Core) : (s.setCore c k).agenda = s.agenda := rfl
@[simp] theorem State.modCore_agenda (s : State) (c : CoreId) (g : Core → Core) : (s.modCore c g).agenda = s.agenda := rfl
@[simp] theorem State.modMe_agenda (s : State) (g : Core → Core) : (s.modMe g).agenda = s.agenda := rfl
@[simp] theorem State.modD_agenda (s : State) (g : Dev → Dev) : (s.modD g).agenda = s.agenda := rfl
@[simp] theorem State.setCore_issue (s : State) (c : CoreId) (k : Core) : (s.setCore c k).issue = s.issue := rfl
@[simp] theorem State.modCore_issue (s : State) (c : CoreId) (g : Core → Core) : (s.modCore c g).issue = s.issue := rfl
@[simp] theorem State.modMe_issue (s : State) (g : Core → Core) : (s.modMe g).issue = s.issue := rfl
@[simp] theorem State.modD_issue (s : State) (g : Dev → Dev) : (s.modD g).issue = s.issue := rfl
@[simp] theorem State.setCore_fresh (s : State) (c : CoreId) (k : Core) : (s.setCore c k).fresh = s.fresh := rfl
@[simp] theorem State.modCore_fresh (s : State) (c : CoreId) (g : Core → Core) : (s.modCore c g).fresh = s.fresh := rfl
@[simp] theorem State.modMe_fresh (s : State) (g : Core → Core) : (s.modMe g).fresh = s.fresh := rfl
@[simp] theorem State.modD_fresh (s : State) (g : Dev → Dev) : (s.modD g).fresh = s.fresh := rfl
@[simp] theorem State.modD_d (s : State) (g : Dev → Dev) : (s.modD g).d = g s.d := rfl
@[simp] theorem State.modD_core (s : State) (g : Dev → Dev) (c : CoreId) : (s.modD g).core c = s.core c := rfl
@[simp] theorem State.modD_me (s : State) (g : Dev → Dev) : (s.modD g).me = s.me := rfl
@[simp] theorem State.setCore_core (s : State) (c : CoreId) (k : Core) : (s.setCore c k).core c = k := by
  simp [State.setCore, State.core]
theorem State.setCore_core_ne (s : State) {a c : CoreId} (k : Core) (h : a ≠ c) : (s.setCore c k).core a = s.core a := by
  simp only [State.setCore, State.core, Fin.getElem_fin]
  exact Vector.getElem_set_ne _ _ (fun e => h (Fin.ext e.symm))
@[simp] theorem State.modCore_core (s : State) (c : CoreId) (g : Core → Core) : (s.modCore c g).core c = g (s.core c) := by
  simp [State.modCore]
theorem State.modCore_core_ne (s : State) {a c : CoreId} (g : Core → Core) (h : a ≠ c) : (s.modCore c g).core a = s.core a :=
  s.setCore_core_ne _ h
@[simp] theorem State.modMe_me (s : State) (g : Core → Core) : (s.modMe g).me = g s.me := by
  simp [State.modMe, State.me]
theorem State.modMe_core_ne (s : State) {a : CoreId} (g : Core → Core) (h : a ≠ s.cur) : (s.modMe g).core a = s.core a :=
  s.modCore_core_ne g h

/-! ### A core -/

@[simp] theorem Core.modR_r (k : Core) (g : Regs → Regs) : (k.modR g).r = g k.r := rfl
@[simp] theorem Core.modR_w (k : Core) (g : Regs → Regs) : (k.modR g).w = k.w := rfl
@[simp] theorem Core.modR_f (k : Core) (g : Regs → Regs) : (k.modR g).f = k.f := rfl
@[simp] theorem Core.modR_q (k : Core) (g : Regs → Regs) : (k.modR g).q = k.q := rfl
@[simp] theorem Core.modR_mx (k : Core) (g : Regs → Regs) : (k.modR g).mx = k.mx := rfl
@[simp] theorem Core.modR_m (k : Core) (g : Regs → Regs) : (k.modR g).m = k.m := rfl
@[simp] theorem Core.modR_ph (k : Core) (g : Regs → Regs) : (k.modR g).ph = k.ph := rfl
@[simp] theorem Core.modR_rg (k : Core) (g : Regs → Regs) : (k.modR g).rg = k.rg := rfl
@[simp] theorem Core.modR_car (k : Core) (g : Regs → Regs) : (k.modR g).car = k.car := rfl
@[simp] theorem Core.modR_run (k : Core) (g : Regs → Regs) : (k.modR g).run = k.run := rfl
@[simp] theorem Core.modR_sup (k : Core) (g : Regs → Regs) : (k.modR g).sup = k.sup := rfl
@[simp] theorem Core.modR_supSelf (k : Core) (g : Regs → Regs) : (k.modR g).supSelf = k.supSelf := rfl
@[simp] theorem Core.modR_preempt (k : Core) (g : Regs → Regs) : (k.modR g).preempt = k.preempt := rfl
@[simp] theorem Core.modR_expired (k : Core) (g : Regs → Regs) : (k.modR g).expired = k.expired := rfl
@[simp] theorem Core.modR_seif (k : Core) (g : Regs → Regs) : (k.modR g).seif = k.seif := rfl
@[simp] theorem Core.modR_own (k : Core) (g : Regs → Regs) : (k.modR g).own = k.own := rfl
@[simp] theorem Core.modR_lineCtx (k : Core) (g : Regs → Regs) : (k.modR g).lineCtx = k.lineCtx := rfl
@[simp] theorem Core.modR_lineCar (k : Core) (g : Regs → Regs) : (k.modR g).lineCar = k.lineCar := rfl
@[simp] theorem Core.modR_unbind (k : Core) (g : Regs → Regs) : (k.modR g).unbind = k.unbind := rfl
@[simp] theorem Core.modW_r (k : Core) (g : Sw → Sw) : (k.modW g).r = k.r := rfl
@[simp] theorem Core.modW_w (k : Core) (g : Sw → Sw) : (k.modW g).w = g k.w := rfl
@[simp] theorem Core.modW_f (k : Core) (g : Sw → Sw) : (k.modW g).f = k.f := rfl
@[simp] theorem Core.modW_q (k : Core) (g : Sw → Sw) : (k.modW g).q = k.q := rfl
@[simp] theorem Core.modW_mx (k : Core) (g : Sw → Sw) : (k.modW g).mx = k.mx := rfl
@[simp] theorem Core.modW_m (k : Core) (g : Sw → Sw) : (k.modW g).m = k.m := rfl
@[simp] theorem Core.modW_ph (k : Core) (g : Sw → Sw) : (k.modW g).ph = k.ph := rfl
@[simp] theorem Core.modW_rg (k : Core) (g : Sw → Sw) : (k.modW g).rg = k.rg := rfl
@[simp] theorem Core.modW_car (k : Core) (g : Sw → Sw) : (k.modW g).car = k.car := rfl
@[simp] theorem Core.modW_run (k : Core) (g : Sw → Sw) : (k.modW g).run = k.run := rfl
@[simp] theorem Core.modW_sup (k : Core) (g : Sw → Sw) : (k.modW g).sup = k.sup := rfl
@[simp] theorem Core.modW_supSelf (k : Core) (g : Sw → Sw) : (k.modW g).supSelf = k.supSelf := rfl
@[simp] theorem Core.modW_preempt (k : Core) (g : Sw → Sw) : (k.modW g).preempt = k.preempt := rfl
@[simp] theorem Core.modW_expired (k : Core) (g : Sw → Sw) : (k.modW g).expired = k.expired := rfl
@[simp] theorem Core.modW_seif (k : Core) (g : Sw → Sw) : (k.modW g).seif = k.seif := rfl
@[simp] theorem Core.modW_own (k : Core) (g : Sw → Sw) : (k.modW g).own = k.own := rfl
@[simp] theorem Core.modW_lineCtx (k : Core) (g : Sw → Sw) : (k.modW g).lineCtx = k.lineCtx := rfl
@[simp] theorem Core.modW_lineCar (k : Core) (g : Sw → Sw) : (k.modW g).lineCar = k.lineCar := rfl
@[simp] theorem Core.modW_unbind (k : Core) (g : Sw → Sw) : (k.modW g).unbind = k.unbind := rfl
@[simp] theorem Core.modF_r (k : Core) (g : Front → Front) : (k.modF g).r = k.r := rfl
@[simp] theorem Core.modF_w (k : Core) (g : Front → Front) : (k.modF g).w = k.w := rfl
@[simp] theorem Core.modF_f (k : Core) (g : Front → Front) : (k.modF g).f = g k.f := rfl
@[simp] theorem Core.modF_q (k : Core) (g : Front → Front) : (k.modF g).q = k.q := rfl
@[simp] theorem Core.modF_mx (k : Core) (g : Front → Front) : (k.modF g).mx = k.mx := rfl
@[simp] theorem Core.modF_m (k : Core) (g : Front → Front) : (k.modF g).m = k.m := rfl
@[simp] theorem Core.modF_ph (k : Core) (g : Front → Front) : (k.modF g).ph = k.ph := rfl
@[simp] theorem Core.modF_rg (k : Core) (g : Front → Front) : (k.modF g).rg = k.rg := rfl
@[simp] theorem Core.modF_car (k : Core) (g : Front → Front) : (k.modF g).car = k.car := rfl
@[simp] theorem Core.modF_run (k : Core) (g : Front → Front) : (k.modF g).run = k.run := rfl
@[simp] theorem Core.modF_sup (k : Core) (g : Front → Front) : (k.modF g).sup = k.sup := rfl
@[simp] theorem Core.modF_supSelf (k : Core) (g : Front → Front) : (k.modF g).supSelf = k.supSelf := rfl
@[simp] theorem Core.modF_preempt (k : Core) (g : Front → Front) : (k.modF g).preempt = k.preempt := rfl
@[simp] theorem Core.modF_expired (k : Core) (g : Front → Front) : (k.modF g).expired = k.expired := rfl
@[simp] theorem Core.modF_seif (k : Core) (g : Front → Front) : (k.modF g).seif = k.seif := rfl
@[simp] theorem Core.modF_own (k : Core) (g : Front → Front) : (k.modF g).own = k.own := rfl
@[simp] theorem Core.modF_lineCtx (k : Core) (g : Front → Front) : (k.modF g).lineCtx = k.lineCtx := rfl
@[simp] theorem Core.modF_lineCar (k : Core) (g : Front → Front) : (k.modF g).lineCar = k.lineCar := rfl
@[simp] theorem Core.modF_unbind (k : Core) (g : Front → Front) : (k.modF g).unbind = k.unbind := rfl
@[simp] theorem Core.modQ_r (k : Core) (g : Queues → Queues) : (k.modQ g).r = k.r := rfl
@[simp] theorem Core.modQ_w (k : Core) (g : Queues → Queues) : (k.modQ g).w = k.w := rfl
@[simp] theorem Core.modQ_f (k : Core) (g : Queues → Queues) : (k.modQ g).f = k.f := rfl
@[simp] theorem Core.modQ_q (k : Core) (g : Queues → Queues) : (k.modQ g).q = g k.q := rfl
@[simp] theorem Core.modQ_mx (k : Core) (g : Queues → Queues) : (k.modQ g).mx = k.mx := rfl
@[simp] theorem Core.modQ_m (k : Core) (g : Queues → Queues) : (k.modQ g).m = k.m := rfl
@[simp] theorem Core.modQ_ph (k : Core) (g : Queues → Queues) : (k.modQ g).ph = k.ph := rfl
@[simp] theorem Core.modQ_rg (k : Core) (g : Queues → Queues) : (k.modQ g).rg = k.rg := rfl
@[simp] theorem Core.modQ_car (k : Core) (g : Queues → Queues) : (k.modQ g).car = k.car := rfl
@[simp] theorem Core.modQ_run (k : Core) (g : Queues → Queues) : (k.modQ g).run = k.run := rfl
@[simp] theorem Core.modQ_sup (k : Core) (g : Queues → Queues) : (k.modQ g).sup = k.sup := rfl
@[simp] theorem Core.modQ_supSelf (k : Core) (g : Queues → Queues) : (k.modQ g).supSelf = k.supSelf := rfl
@[simp] theorem Core.modQ_preempt (k : Core) (g : Queues → Queues) : (k.modQ g).preempt = k.preempt := rfl
@[simp] theorem Core.modQ_expired (k : Core) (g : Queues → Queues) : (k.modQ g).expired = k.expired := rfl
@[simp] theorem Core.modQ_seif (k : Core) (g : Queues → Queues) : (k.modQ g).seif = k.seif := rfl
@[simp] theorem Core.modQ_own (k : Core) (g : Queues → Queues) : (k.modQ g).own = k.own := rfl
@[simp] theorem Core.modQ_lineCtx (k : Core) (g : Queues → Queues) : (k.modQ g).lineCtx = k.lineCtx := rfl
@[simp] theorem Core.modQ_lineCar (k : Core) (g : Queues → Queues) : (k.modQ g).lineCar = k.lineCar := rfl
@[simp] theorem Core.modQ_unbind (k : Core) (g : Queues → Queues) : (k.modQ g).unbind = k.unbind := rfl
@[simp] theorem Core.modMx_r (k : Core) (g : Array_ → Array_) : (k.modMx g).r = k.r := rfl
@[simp] theorem Core.modMx_w (k : Core) (g : Array_ → Array_) : (k.modMx g).w = k.w := rfl
@[simp] theorem Core.modMx_f (k : Core) (g : Array_ → Array_) : (k.modMx g).f = k.f := rfl
@[simp] theorem Core.modMx_q (k : Core) (g : Array_ → Array_) : (k.modMx g).q = k.q := rfl
@[simp] theorem Core.modMx_mx (k : Core) (g : Array_ → Array_) : (k.modMx g).mx = g k.mx := rfl
@[simp] theorem Core.modMx_m (k : Core) (g : Array_ → Array_) : (k.modMx g).m = k.m := rfl
@[simp] theorem Core.modMx_ph (k : Core) (g : Array_ → Array_) : (k.modMx g).ph = k.ph := rfl
@[simp] theorem Core.modMx_rg (k : Core) (g : Array_ → Array_) : (k.modMx g).rg = k.rg := rfl
@[simp] theorem Core.modMx_car (k : Core) (g : Array_ → Array_) : (k.modMx g).car = k.car := rfl
@[simp] theorem Core.modMx_run (k : Core) (g : Array_ → Array_) : (k.modMx g).run = k.run := rfl
@[simp] theorem Core.modMx_sup (k : Core) (g : Array_ → Array_) : (k.modMx g).sup = k.sup := rfl
@[simp] theorem Core.modMx_supSelf (k : Core) (g : Array_ → Array_) : (k.modMx g).supSelf = k.supSelf := rfl
@[simp] theorem Core.modMx_preempt (k : Core) (g : Array_ → Array_) : (k.modMx g).preempt = k.preempt := rfl
@[simp] theorem Core.modMx_expired (k : Core) (g : Array_ → Array_) : (k.modMx g).expired = k.expired := rfl
@[simp] theorem Core.modMx_seif (k : Core) (g : Array_ → Array_) : (k.modMx g).seif = k.seif := rfl
@[simp] theorem Core.modMx_own (k : Core) (g : Array_ → Array_) : (k.modMx g).own = k.own := rfl
@[simp] theorem Core.modMx_lineCtx (k : Core) (g : Array_ → Array_) : (k.modMx g).lineCtx = k.lineCtx := rfl
@[simp] theorem Core.modMx_lineCar (k : Core) (g : Array_ → Array_) : (k.modMx g).lineCar = k.lineCar := rfl
@[simp] theorem Core.modMx_unbind (k : Core) (g : Array_ → Array_) : (k.modMx g).unbind = k.unbind := rfl
@[simp] theorem Core.modM_r (k : Core) (g : Stores → Stores) : (k.modM g).r = k.r := rfl
@[simp] theorem Core.modM_w (k : Core) (g : Stores → Stores) : (k.modM g).w = k.w := rfl
@[simp] theorem Core.modM_f (k : Core) (g : Stores → Stores) : (k.modM g).f = k.f := rfl
@[simp] theorem Core.modM_q (k : Core) (g : Stores → Stores) : (k.modM g).q = k.q := rfl
@[simp] theorem Core.modM_mx (k : Core) (g : Stores → Stores) : (k.modM g).mx = k.mx := rfl
@[simp] theorem Core.modM_m (k : Core) (g : Stores → Stores) : (k.modM g).m = g k.m := rfl
@[simp] theorem Core.modM_ph (k : Core) (g : Stores → Stores) : (k.modM g).ph = k.ph := rfl
@[simp] theorem Core.modM_rg (k : Core) (g : Stores → Stores) : (k.modM g).rg = k.rg := rfl
@[simp] theorem Core.modM_car (k : Core) (g : Stores → Stores) : (k.modM g).car = k.car := rfl
@[simp] theorem Core.modM_run (k : Core) (g : Stores → Stores) : (k.modM g).run = k.run := rfl
@[simp] theorem Core.modM_sup (k : Core) (g : Stores → Stores) : (k.modM g).sup = k.sup := rfl
@[simp] theorem Core.modM_supSelf (k : Core) (g : Stores → Stores) : (k.modM g).supSelf = k.supSelf := rfl
@[simp] theorem Core.modM_preempt (k : Core) (g : Stores → Stores) : (k.modM g).preempt = k.preempt := rfl
@[simp] theorem Core.modM_expired (k : Core) (g : Stores → Stores) : (k.modM g).expired = k.expired := rfl
@[simp] theorem Core.modM_seif (k : Core) (g : Stores → Stores) : (k.modM g).seif = k.seif := rfl
@[simp] theorem Core.modM_own (k : Core) (g : Stores → Stores) : (k.modM g).own = k.own := rfl
@[simp] theorem Core.modM_lineCtx (k : Core) (g : Stores → Stores) : (k.modM g).lineCtx = k.lineCtx := rfl
@[simp] theorem Core.modM_lineCar (k : Core) (g : Stores → Stores) : (k.modM g).lineCar = k.lineCar := rfl
@[simp] theorem Core.modM_unbind (k : Core) (g : Stores → Stores) : (k.modM g).unbind = k.unbind := rfl
@[simp] theorem Core.push_r (k : Core) (p : Pend) : (k.push p).r = k.r := rfl
@[simp] theorem Core.push_w (k : Core) (p : Pend) : (k.push p).w = k.w := rfl
@[simp] theorem Core.push_f (k : Core) (p : Pend) : (k.push p).f = k.f := rfl
@[simp] theorem Core.push_mx (k : Core) (p : Pend) : (k.push p).mx = k.mx := rfl
@[simp] theorem Core.push_m (k : Core) (p : Pend) : (k.push p).m = k.m := rfl
@[simp] theorem Core.push_ph (k : Core) (p : Pend) : (k.push p).ph = k.ph := rfl
@[simp] theorem Core.push_rg (k : Core) (p : Pend) : (k.push p).rg = k.rg := rfl
@[simp] theorem Core.push_car (k : Core) (p : Pend) : (k.push p).car = k.car := rfl
@[simp] theorem Core.push_run (k : Core) (p : Pend) : (k.push p).run = k.run := rfl
@[simp] theorem Core.push_sup (k : Core) (p : Pend) : (k.push p).sup = k.sup := rfl
@[simp] theorem Core.push_supSelf (k : Core) (p : Pend) : (k.push p).supSelf = k.supSelf := rfl
@[simp] theorem Core.push_preempt (k : Core) (p : Pend) : (k.push p).preempt = k.preempt := rfl
@[simp] theorem Core.push_expired (k : Core) (p : Pend) : (k.push p).expired = k.expired := rfl
@[simp] theorem Core.push_seif (k : Core) (p : Pend) : (k.push p).seif = k.seif := rfl
@[simp] theorem Core.push_own (k : Core) (p : Pend) : (k.push p).own = k.own := rfl
@[simp] theorem Core.push_lineCtx (k : Core) (p : Pend) : (k.push p).lineCtx = k.lineCtx := rfl
@[simp] theorem Core.push_lineCar (k : Core) (p : Pend) : (k.push p).lineCar = k.lineCar := rfl
@[simp] theorem Core.push_unbind (k : Core) (p : Pend) : (k.push p).unbind = k.unbind := rfl
@[simp] theorem Core.push_pend (k : Core) (p : Pend) : (k.push p).q.pend = k.q.pend ++ [p] := rfl

/-! ### The device -/

@[simp] theorem Dev.modFn_mem (d : Dev) (f : FnId) (g : Fn → Fn) : (d.modFn f g).mem = d.mem := rfl
@[simp] theorem Dev.modFn_tags (d : Dev) (f : FnId) (g : Fn → Fn) : (d.modFn f g).tags = d.tags := rfl
@[simp] theorem Dev.modFn_memP (d : Dev) (f : FnId) (g : Fn → Fn) : (d.modFn f g).memP = d.memP := rfl
@[simp] theorem Dev.modFn_hostP (d : Dev) (f : FnId) (g : Fn → Fn) : (d.modFn f g).hostP = d.hostP := rfl
@[simp] theorem Dev.modFn_hostE (d : Dev) (f : FnId) (g : Fn → Fn) : (d.modFn f g).hostE = d.hostE := rfl
@[simp] theorem Dev.modFn_ws (d : Dev) (f : FnId) (g : Fn → Fn) : (d.modFn f g).ws = d.ws := rfl
@[simp] theorem Dev.modFn_wsP (d : Dev) (f : FnId) (g : Fn → Fn) : (d.modFn f g).wsP = d.wsP := rfl
@[simp] theorem Dev.modFn_refresh (d : Dev) (f : FnId) (g : Fn → Fn) : (d.modFn f g).refresh = d.refresh := rfl
@[simp] theorem Dev.modFn_tick (d : Dev) (f : FnId) (g : Fn → Fn) : (d.modFn f g).tick = d.tick := rfl
@[simp] theorem Dev.modFn_keys (d : Dev) (f : FnId) (g : Fn → Fn) : (d.modFn f g).keys = d.keys := rfl
@[simp] theorem Dev.modFn_ctxs (d : Dev) (f : FnId) (g : Fn → Fn) : (d.modFn f g).ctxs = d.ctxs := rfl
@[simp] theorem Dev.modFn_clus (d : Dev) (f : FnId) (g : Fn → Fn) : (d.modFn f g).clus = d.clus := rfl
@[simp] theorem Dev.modFn_grans (d : Dev) (f : FnId) (g : Fn → Fn) : (d.modFn f g).grans = d.grans := rfl
@[simp] theorem Dev.modFn_qs (d : Dev) (f : FnId) (g : Fn → Fn) : (d.modFn f g).qs = d.qs := rfl
@[simp] theorem Dev.modFn_slots (d : Dev) (f : FnId) (g : Fn → Fn) : (d.modFn f g).slots = d.slots := rfl
@[simp] theorem Dev.modFn_credC (d : Dev) (f : FnId) (g : Fn → Fn) : (d.modFn f g).credC = d.credC := rfl
@[simp] theorem Dev.modFn_credD (d : Dev) (f : FnId) (g : Fn → Fn) : (d.modFn f g).credD = d.credD := rfl
@[simp] theorem Dev.modFn_cars (d : Dev) (f : FnId) (g : Fn → Fn) : (d.modFn f g).cars = d.cars := rfl
@[simp] theorem Dev.modFn_recs (d : Dev) (f : FnId) (g : Fn → Fn) : (d.modFn f g).recs = d.recs := rfl
@[simp] theorem Dev.modFn_susp (d : Dev) (f : FnId) (g : Fn → Fn) : (d.modFn f g).susp = d.susp := rfl
@[simp] theorem Dev.modFn_nid (d : Dev) (f : FnId) (g : Fn → Fn) : (d.modFn f g).nid = d.nid := rfl
@[simp] theorem Dev.modFn_order (d : Dev) (f : FnId) (g : Fn → Fn) : (d.modFn f g).order = d.order := rfl
@[simp] theorem Dev.modFn_seif (d : Dev) (f : FnId) (g : Fn → Fn) : (d.modFn f g).seif = d.seif := rfl
@[simp] theorem Dev.modFn_wins (d : Dev) (f : FnId) (g : Fn → Fn) : (d.modFn f g).wins = d.wins := rfl
@[simp] theorem Dev.modFn_locs (d : Dev) (f : FnId) (g : Fn → Fn) : (d.modFn f g).locs = d.locs := rfl
@[simp] theorem Dev.modFn_scrubG (d : Dev) (f : FnId) (g : Fn → Fn) : (d.modFn f g).scrubG = d.scrubG := rfl
@[simp] theorem Dev.modFn_scrubbed (d : Dev) (f : FnId) (g : Fn → Fn) : (d.modFn f g).scrubbed = d.scrubbed := rfl
@[simp] theorem Dev.modFn_scrubFn (d : Dev) (f : FnId) (g : Fn → Fn) : (d.modFn f g).scrubFn = d.scrubFn := rfl
@[simp] theorem Dev.modFn_notes (d : Dev) (f : FnId) (g : Fn → Fn) : (d.modFn f g).notes = d.notes := rfl
@[simp] theorem Dev.modFn_moves (d : Dev) (f : FnId) (g : Fn → Fn) : (d.modFn f g).moves = d.moves := rfl
@[simp] theorem Dev.modFn_moving (d : Dev) (f : FnId) (g : Fn → Fn) : (d.modFn f g).moving = d.moving := rfl
@[simp] theorem Dev.modFn_moved (d : Dev) (f : FnId) (g : Fn → Fn) : (d.modFn f g).moved = d.moved := rfl
@[simp] theorem Dev.modFn_lost (d : Dev) (f : FnId) (g : Fn → Fn) : (d.modFn f g).lost = d.lost := rfl
@[simp] theorem Dev.modFn_hbm (d : Dev) (f : FnId) (g : Fn → Fn) : (d.modFn f g).hbm = d.hbm := rfl
@[simp] theorem Dev.modFn_receipts (d : Dev) (f : FnId) (g : Fn → Fn) : (d.modFn f g).receipts = d.receipts := rfl
@[simp] theorem Dev.modFn_nrec (d : Dev) (f : FnId) (g : Fn → Fn) : (d.modFn f g).nrec = d.nrec := rfl
@[simp] theorem Dev.modFn_monC (d : Dev) (f : FnId) (g : Fn → Fn) : (d.modFn f g).monC = d.monC := rfl
@[simp] theorem Dev.modFn_monM (d : Dev) (f : FnId) (g : Fn → Fn) : (d.modFn f g).monM = d.monM := rfl
@[simp] theorem Dev.modFn_bw (d : Dev) (f : FnId) (g : Fn → Fn) : (d.modFn f g).bw = d.bw := rfl
@[simp] theorem Dev.modFn_asked (d : Dev) (f : FnId) (g : Fn → Fn) : (d.modFn f g).asked = d.asked := rfl
@[simp] theorem Dev.modFn_streams (d : Dev) (f : FnId) (g : Fn → Fn) : (d.modFn f g).streams = d.streams := rfl
@[simp] theorem Dev.modFn_ckpts (d : Dev) (f : FnId) (g : Fn → Fn) : (d.modFn f g).ckpts = d.ckpts := rfl
@[simp] theorem Dev.modFn_tmax (d : Dev) (f : FnId) (g : Fn → Fn) : (d.modFn f g).tmax = d.tmax := rfl
@[simp] theorem Dev.modFn_warn (d : Dev) (f : FnId) (g : Fn → Fn) : (d.modFn f g).warn = d.warn := rfl
@[simp] theorem Dev.modFn_admHold (d : Dev) (f : FnId) (g : Fn → Fn) : (d.modFn f g).admHold = d.admHold := rfl
@[simp] theorem Dev.modFn_inReset (d : Dev) (f : FnId) (g : Fn → Fn) : (d.modFn f g).inReset = d.inReset := rfl
@[simp] theorem Dev.modFn_training (d : Dev) (f : FnId) (g : Fn → Fn) : (d.modFn f g).training = d.training := rfl
@[simp] theorem Dev.modFn_flr (d : Dev) (f : FnId) (g : Fn → Fn) : (d.modFn f g).flr = d.flr := rfl
@[simp] theorem Dev.modFn_boot (d : Dev) (f : FnId) (g : Fn → Fn) : (d.modFn f g).boot = d.boot := rfl
@[simp] theorem Dev.modFn_nctx (d : Dev) (f : FnId) (g : Fn → Fn) : (d.modFn f g).nctx = d.nctx := rfl
@[simp] theorem Dev.modFn_ranks (d : Dev) (f : FnId) (g : Fn → Fn) : (d.modFn f g).ranks = d.ranks := rfl
@[simp] theorem Dev.modFn_msix (d : Dev) (f : FnId) (g : Fn → Fn) : (d.modFn f g).msix = d.msix := rfl
@[simp] theorem Dev.modFn_resps (d : Dev) (f : FnId) (g : Fn → Fn) : (d.modFn f g).resps = d.resps := rfl
@[simp] theorem Dev.modCar_mem (d : Dev) (id : Nat) (g : Caravan → Caravan) : (d.modCar id g).mem = d.mem := rfl
@[simp] theorem Dev.modCar_tags (d : Dev) (id : Nat) (g : Caravan → Caravan) : (d.modCar id g).tags = d.tags := rfl
@[simp] theorem Dev.modCar_memP (d : Dev) (id : Nat) (g : Caravan → Caravan) : (d.modCar id g).memP = d.memP := rfl
@[simp] theorem Dev.modCar_hostP (d : Dev) (id : Nat) (g : Caravan → Caravan) : (d.modCar id g).hostP = d.hostP := rfl
@[simp] theorem Dev.modCar_hostE (d : Dev) (id : Nat) (g : Caravan → Caravan) : (d.modCar id g).hostE = d.hostE := rfl
@[simp] theorem Dev.modCar_ws (d : Dev) (id : Nat) (g : Caravan → Caravan) : (d.modCar id g).ws = d.ws := rfl
@[simp] theorem Dev.modCar_wsP (d : Dev) (id : Nat) (g : Caravan → Caravan) : (d.modCar id g).wsP = d.wsP := rfl
@[simp] theorem Dev.modCar_refresh (d : Dev) (id : Nat) (g : Caravan → Caravan) : (d.modCar id g).refresh = d.refresh := rfl
@[simp] theorem Dev.modCar_tick (d : Dev) (id : Nat) (g : Caravan → Caravan) : (d.modCar id g).tick = d.tick := rfl
@[simp] theorem Dev.modCar_keys (d : Dev) (id : Nat) (g : Caravan → Caravan) : (d.modCar id g).keys = d.keys := rfl
@[simp] theorem Dev.modCar_ctxs (d : Dev) (id : Nat) (g : Caravan → Caravan) : (d.modCar id g).ctxs = d.ctxs := rfl
@[simp] theorem Dev.modCar_fns (d : Dev) (id : Nat) (g : Caravan → Caravan) : (d.modCar id g).fns = d.fns := rfl
@[simp] theorem Dev.modCar_clus (d : Dev) (id : Nat) (g : Caravan → Caravan) : (d.modCar id g).clus = d.clus := rfl
@[simp] theorem Dev.modCar_grans (d : Dev) (id : Nat) (g : Caravan → Caravan) : (d.modCar id g).grans = d.grans := rfl
@[simp] theorem Dev.modCar_qs (d : Dev) (id : Nat) (g : Caravan → Caravan) : (d.modCar id g).qs = d.qs := rfl
@[simp] theorem Dev.modCar_slots (d : Dev) (id : Nat) (g : Caravan → Caravan) : (d.modCar id g).slots = d.slots := rfl
@[simp] theorem Dev.modCar_credC (d : Dev) (id : Nat) (g : Caravan → Caravan) : (d.modCar id g).credC = d.credC := rfl
@[simp] theorem Dev.modCar_credD (d : Dev) (id : Nat) (g : Caravan → Caravan) : (d.modCar id g).credD = d.credD := rfl
@[simp] theorem Dev.modCar_recs (d : Dev) (id : Nat) (g : Caravan → Caravan) : (d.modCar id g).recs = d.recs := rfl
@[simp] theorem Dev.modCar_susp (d : Dev) (id : Nat) (g : Caravan → Caravan) : (d.modCar id g).susp = d.susp := rfl
@[simp] theorem Dev.modCar_nid (d : Dev) (id : Nat) (g : Caravan → Caravan) : (d.modCar id g).nid = d.nid := rfl
@[simp] theorem Dev.modCar_order (d : Dev) (id : Nat) (g : Caravan → Caravan) : (d.modCar id g).order = d.order := rfl
@[simp] theorem Dev.modCar_seif (d : Dev) (id : Nat) (g : Caravan → Caravan) : (d.modCar id g).seif = d.seif := rfl
@[simp] theorem Dev.modCar_wins (d : Dev) (id : Nat) (g : Caravan → Caravan) : (d.modCar id g).wins = d.wins := rfl
@[simp] theorem Dev.modCar_locs (d : Dev) (id : Nat) (g : Caravan → Caravan) : (d.modCar id g).locs = d.locs := rfl
@[simp] theorem Dev.modCar_scrubG (d : Dev) (id : Nat) (g : Caravan → Caravan) : (d.modCar id g).scrubG = d.scrubG := rfl
@[simp] theorem Dev.modCar_scrubbed (d : Dev) (id : Nat) (g : Caravan → Caravan) : (d.modCar id g).scrubbed = d.scrubbed := rfl
@[simp] theorem Dev.modCar_scrubFn (d : Dev) (id : Nat) (g : Caravan → Caravan) : (d.modCar id g).scrubFn = d.scrubFn := rfl
@[simp] theorem Dev.modCar_notes (d : Dev) (id : Nat) (g : Caravan → Caravan) : (d.modCar id g).notes = d.notes := rfl
@[simp] theorem Dev.modCar_moves (d : Dev) (id : Nat) (g : Caravan → Caravan) : (d.modCar id g).moves = d.moves := rfl
@[simp] theorem Dev.modCar_moving (d : Dev) (id : Nat) (g : Caravan → Caravan) : (d.modCar id g).moving = d.moving := rfl
@[simp] theorem Dev.modCar_moved (d : Dev) (id : Nat) (g : Caravan → Caravan) : (d.modCar id g).moved = d.moved := rfl
@[simp] theorem Dev.modCar_lost (d : Dev) (id : Nat) (g : Caravan → Caravan) : (d.modCar id g).lost = d.lost := rfl
@[simp] theorem Dev.modCar_hbm (d : Dev) (id : Nat) (g : Caravan → Caravan) : (d.modCar id g).hbm = d.hbm := rfl
@[simp] theorem Dev.modCar_receipts (d : Dev) (id : Nat) (g : Caravan → Caravan) : (d.modCar id g).receipts = d.receipts := rfl
@[simp] theorem Dev.modCar_nrec (d : Dev) (id : Nat) (g : Caravan → Caravan) : (d.modCar id g).nrec = d.nrec := rfl
@[simp] theorem Dev.modCar_monC (d : Dev) (id : Nat) (g : Caravan → Caravan) : (d.modCar id g).monC = d.monC := rfl
@[simp] theorem Dev.modCar_monM (d : Dev) (id : Nat) (g : Caravan → Caravan) : (d.modCar id g).monM = d.monM := rfl
@[simp] theorem Dev.modCar_bw (d : Dev) (id : Nat) (g : Caravan → Caravan) : (d.modCar id g).bw = d.bw := rfl
@[simp] theorem Dev.modCar_asked (d : Dev) (id : Nat) (g : Caravan → Caravan) : (d.modCar id g).asked = d.asked := rfl
@[simp] theorem Dev.modCar_streams (d : Dev) (id : Nat) (g : Caravan → Caravan) : (d.modCar id g).streams = d.streams := rfl
@[simp] theorem Dev.modCar_ckpts (d : Dev) (id : Nat) (g : Caravan → Caravan) : (d.modCar id g).ckpts = d.ckpts := rfl
@[simp] theorem Dev.modCar_tmax (d : Dev) (id : Nat) (g : Caravan → Caravan) : (d.modCar id g).tmax = d.tmax := rfl
@[simp] theorem Dev.modCar_warn (d : Dev) (id : Nat) (g : Caravan → Caravan) : (d.modCar id g).warn = d.warn := rfl
@[simp] theorem Dev.modCar_admHold (d : Dev) (id : Nat) (g : Caravan → Caravan) : (d.modCar id g).admHold = d.admHold := rfl
@[simp] theorem Dev.modCar_inReset (d : Dev) (id : Nat) (g : Caravan → Caravan) : (d.modCar id g).inReset = d.inReset := rfl
@[simp] theorem Dev.modCar_training (d : Dev) (id : Nat) (g : Caravan → Caravan) : (d.modCar id g).training = d.training := rfl
@[simp] theorem Dev.modCar_flr (d : Dev) (id : Nat) (g : Caravan → Caravan) : (d.modCar id g).flr = d.flr := rfl
@[simp] theorem Dev.modCar_boot (d : Dev) (id : Nat) (g : Caravan → Caravan) : (d.modCar id g).boot = d.boot := rfl
@[simp] theorem Dev.modCar_nctx (d : Dev) (id : Nat) (g : Caravan → Caravan) : (d.modCar id g).nctx = d.nctx := rfl
@[simp] theorem Dev.modCar_ranks (d : Dev) (id : Nat) (g : Caravan → Caravan) : (d.modCar id g).ranks = d.ranks := rfl
@[simp] theorem Dev.modCar_msix (d : Dev) (id : Nat) (g : Caravan → Caravan) : (d.modCar id g).msix = d.msix := rfl
@[simp] theorem Dev.modCar_resps (d : Dev) (id : Nat) (g : Caravan → Caravan) : (d.modCar id g).resps = d.resps := rfl
@[simp] theorem Dev.modRec_mem (d : Dev) (id : Nat) (g : CRec → CRec) : (d.modRec id g).mem = d.mem := rfl
@[simp] theorem Dev.modRec_tags (d : Dev) (id : Nat) (g : CRec → CRec) : (d.modRec id g).tags = d.tags := rfl
@[simp] theorem Dev.modRec_memP (d : Dev) (id : Nat) (g : CRec → CRec) : (d.modRec id g).memP = d.memP := rfl
@[simp] theorem Dev.modRec_hostP (d : Dev) (id : Nat) (g : CRec → CRec) : (d.modRec id g).hostP = d.hostP := rfl
@[simp] theorem Dev.modRec_hostE (d : Dev) (id : Nat) (g : CRec → CRec) : (d.modRec id g).hostE = d.hostE := rfl
@[simp] theorem Dev.modRec_ws (d : Dev) (id : Nat) (g : CRec → CRec) : (d.modRec id g).ws = d.ws := rfl
@[simp] theorem Dev.modRec_wsP (d : Dev) (id : Nat) (g : CRec → CRec) : (d.modRec id g).wsP = d.wsP := rfl
@[simp] theorem Dev.modRec_refresh (d : Dev) (id : Nat) (g : CRec → CRec) : (d.modRec id g).refresh = d.refresh := rfl
@[simp] theorem Dev.modRec_tick (d : Dev) (id : Nat) (g : CRec → CRec) : (d.modRec id g).tick = d.tick := rfl
@[simp] theorem Dev.modRec_keys (d : Dev) (id : Nat) (g : CRec → CRec) : (d.modRec id g).keys = d.keys := rfl
@[simp] theorem Dev.modRec_ctxs (d : Dev) (id : Nat) (g : CRec → CRec) : (d.modRec id g).ctxs = d.ctxs := rfl
@[simp] theorem Dev.modRec_fns (d : Dev) (id : Nat) (g : CRec → CRec) : (d.modRec id g).fns = d.fns := rfl
@[simp] theorem Dev.modRec_clus (d : Dev) (id : Nat) (g : CRec → CRec) : (d.modRec id g).clus = d.clus := rfl
@[simp] theorem Dev.modRec_grans (d : Dev) (id : Nat) (g : CRec → CRec) : (d.modRec id g).grans = d.grans := rfl
@[simp] theorem Dev.modRec_qs (d : Dev) (id : Nat) (g : CRec → CRec) : (d.modRec id g).qs = d.qs := rfl
@[simp] theorem Dev.modRec_slots (d : Dev) (id : Nat) (g : CRec → CRec) : (d.modRec id g).slots = d.slots := rfl
@[simp] theorem Dev.modRec_credC (d : Dev) (id : Nat) (g : CRec → CRec) : (d.modRec id g).credC = d.credC := rfl
@[simp] theorem Dev.modRec_credD (d : Dev) (id : Nat) (g : CRec → CRec) : (d.modRec id g).credD = d.credD := rfl
@[simp] theorem Dev.modRec_cars (d : Dev) (id : Nat) (g : CRec → CRec) : (d.modRec id g).cars = d.cars := rfl
@[simp] theorem Dev.modRec_susp (d : Dev) (id : Nat) (g : CRec → CRec) : (d.modRec id g).susp = d.susp := rfl
@[simp] theorem Dev.modRec_nid (d : Dev) (id : Nat) (g : CRec → CRec) : (d.modRec id g).nid = d.nid := rfl
@[simp] theorem Dev.modRec_order (d : Dev) (id : Nat) (g : CRec → CRec) : (d.modRec id g).order = d.order := rfl
@[simp] theorem Dev.modRec_seif (d : Dev) (id : Nat) (g : CRec → CRec) : (d.modRec id g).seif = d.seif := rfl
@[simp] theorem Dev.modRec_wins (d : Dev) (id : Nat) (g : CRec → CRec) : (d.modRec id g).wins = d.wins := rfl
@[simp] theorem Dev.modRec_locs (d : Dev) (id : Nat) (g : CRec → CRec) : (d.modRec id g).locs = d.locs := rfl
@[simp] theorem Dev.modRec_scrubG (d : Dev) (id : Nat) (g : CRec → CRec) : (d.modRec id g).scrubG = d.scrubG := rfl
@[simp] theorem Dev.modRec_scrubbed (d : Dev) (id : Nat) (g : CRec → CRec) : (d.modRec id g).scrubbed = d.scrubbed := rfl
@[simp] theorem Dev.modRec_scrubFn (d : Dev) (id : Nat) (g : CRec → CRec) : (d.modRec id g).scrubFn = d.scrubFn := rfl
@[simp] theorem Dev.modRec_notes (d : Dev) (id : Nat) (g : CRec → CRec) : (d.modRec id g).notes = d.notes := rfl
@[simp] theorem Dev.modRec_moves (d : Dev) (id : Nat) (g : CRec → CRec) : (d.modRec id g).moves = d.moves := rfl
@[simp] theorem Dev.modRec_moving (d : Dev) (id : Nat) (g : CRec → CRec) : (d.modRec id g).moving = d.moving := rfl
@[simp] theorem Dev.modRec_moved (d : Dev) (id : Nat) (g : CRec → CRec) : (d.modRec id g).moved = d.moved := rfl
@[simp] theorem Dev.modRec_lost (d : Dev) (id : Nat) (g : CRec → CRec) : (d.modRec id g).lost = d.lost := rfl
@[simp] theorem Dev.modRec_hbm (d : Dev) (id : Nat) (g : CRec → CRec) : (d.modRec id g).hbm = d.hbm := rfl
@[simp] theorem Dev.modRec_receipts (d : Dev) (id : Nat) (g : CRec → CRec) : (d.modRec id g).receipts = d.receipts := rfl
@[simp] theorem Dev.modRec_nrec (d : Dev) (id : Nat) (g : CRec → CRec) : (d.modRec id g).nrec = d.nrec := rfl
@[simp] theorem Dev.modRec_monC (d : Dev) (id : Nat) (g : CRec → CRec) : (d.modRec id g).monC = d.monC := rfl
@[simp] theorem Dev.modRec_monM (d : Dev) (id : Nat) (g : CRec → CRec) : (d.modRec id g).monM = d.monM := rfl
@[simp] theorem Dev.modRec_bw (d : Dev) (id : Nat) (g : CRec → CRec) : (d.modRec id g).bw = d.bw := rfl
@[simp] theorem Dev.modRec_asked (d : Dev) (id : Nat) (g : CRec → CRec) : (d.modRec id g).asked = d.asked := rfl
@[simp] theorem Dev.modRec_streams (d : Dev) (id : Nat) (g : CRec → CRec) : (d.modRec id g).streams = d.streams := rfl
@[simp] theorem Dev.modRec_ckpts (d : Dev) (id : Nat) (g : CRec → CRec) : (d.modRec id g).ckpts = d.ckpts := rfl
@[simp] theorem Dev.modRec_tmax (d : Dev) (id : Nat) (g : CRec → CRec) : (d.modRec id g).tmax = d.tmax := rfl
@[simp] theorem Dev.modRec_warn (d : Dev) (id : Nat) (g : CRec → CRec) : (d.modRec id g).warn = d.warn := rfl
@[simp] theorem Dev.modRec_admHold (d : Dev) (id : Nat) (g : CRec → CRec) : (d.modRec id g).admHold = d.admHold := rfl
@[simp] theorem Dev.modRec_inReset (d : Dev) (id : Nat) (g : CRec → CRec) : (d.modRec id g).inReset = d.inReset := rfl
@[simp] theorem Dev.modRec_training (d : Dev) (id : Nat) (g : CRec → CRec) : (d.modRec id g).training = d.training := rfl
@[simp] theorem Dev.modRec_flr (d : Dev) (id : Nat) (g : CRec → CRec) : (d.modRec id g).flr = d.flr := rfl
@[simp] theorem Dev.modRec_boot (d : Dev) (id : Nat) (g : CRec → CRec) : (d.modRec id g).boot = d.boot := rfl
@[simp] theorem Dev.modRec_nctx (d : Dev) (id : Nat) (g : CRec → CRec) : (d.modRec id g).nctx = d.nctx := rfl
@[simp] theorem Dev.modRec_ranks (d : Dev) (id : Nat) (g : CRec → CRec) : (d.modRec id g).ranks = d.ranks := rfl
@[simp] theorem Dev.modRec_msix (d : Dev) (id : Nat) (g : CRec → CRec) : (d.modRec id g).msix = d.msix := rfl
@[simp] theorem Dev.modRec_resps (d : Dev) (id : Nat) (g : CRec → CRec) : (d.modRec id g).resps = d.resps := rfl
@[simp] theorem Dev.modFn_fns_self (d : Dev) (f : FnId) (g : Fn → Fn) : (d.modFn f g).fns[f] = g d.fns[f] := by
  simp [Dev.modFn]
theorem Dev.modFn_fns_ne (d : Dev) {f h : FnId} (g : Fn → Fn) (e : h ≠ f) : (d.modFn f g).fns[h] = d.fns[h] := by
  simp only [Dev.modFn, Fin.getElem_fin]
  exact Vector.getElem_set_ne _ _ (fun x => e (Fin.ext x.symm))
@[simp] theorem Dev.modFn_modFn (d : Dev) (f : FnId) (g h : Fn → Fn) : (d.modFn f g).modFn f h = d.modFn f (fun x => h (g x)) := by
  simp [Dev.modFn]

end Sys2Proof.Machine
end

