-- ==== Sys2Proof/Laws/Memory.lean ====
section
/-! SUPPORT. Byte stores and tables: their canonical form, which every operation keeps; what is read after a write, and that a
write leaves every other index alone. -/

namespace Sys2Proof

namespace Sparse
variable {w : Nat}

/-- The canonical form said by its entries: indices rise, none is below the least, and no word is zero. -/
theorem wfFrom_iff (m : Sparse w) : ∀ lo, wfFrom lo m = true ↔
    m.Pairwise (fun x y => x.1 < y.1) ∧ ∀ e ∈ m, lo ≤ e.1 ∧ e.2 ≠ 0 := by
  induction m with
  | nil => simp [wfFrom]
  | cons e m ih =>
    obtain ⟨j, x⟩ := e
    intro lo
    simp only [wfFrom, Bool.and_eq_true, decide_eq_true_eq, ih, List.pairwise_cons, List.mem_cons, forall_eq_or_imp]
    constructor
    · rintro ⟨⟨a, b⟩, c, d⟩
      exact ⟨⟨fun y hy => (d y hy).1, c⟩, ⟨a, b⟩, fun y hy => ⟨by have := (d y hy).1; omega, (d y hy).2⟩⟩
    · rintro ⟨⟨a, b⟩, ⟨c, d⟩, f⟩
      exact ⟨⟨c, d⟩, b, fun y hy => ⟨a y hy, (f y hy).2⟩⟩

theorem wf_iff (m : Sparse w) : wf m = true ↔ m.Pairwise (fun x y => x.1 < y.1) ∧ ∀ e ∈ m, e.2 ≠ 0 := by
  simp [wf, wfFrom_iff]

@[simp] theorem wf_nil : wf ([] : Sparse w) = true := rfl

/-- Leaving entries out keeps the form. -/
theorem wf_filter {m : Sparse w} (p : Nat × BitVec w → Bool) (h : wf m = true) : wf (m.filter p) = true := by
  rw [wf_iff] at *
  exact ⟨h.1.filter p, fun e he => h.2 e (List.mem_of_mem_filter he)⟩

/-- Stores of which the first lies wholly below the second, side by side. -/
theorem wf_append {a b : Sparse w} (ha : wf a = true) (hb : wf b = true) (h : ∀ x ∈ a, ∀ y ∈ b, x.1 < y.1) :
    wf (a ++ b) = true := by
  rw [wf_iff] at *
  refine ⟨List.pairwise_append.2 ⟨ha.1, hb.1, h⟩, fun e he => ?_⟩
  rcases List.mem_append.1 he with he | he
  · exact ha.2 e he
  · exact hb.2 e he

theorem mem_entries (vs : List (BitVec w)) : ∀ a, ∀ e ∈ entries a vs, a ≤ e.1 ∧ e.1 < a + vs.length ∧ e.2 ≠ 0 := by
  induction vs with
  | nil => simp [entries]
  | cons v vs ih =>
    intro a e he
    simp only [entries] at he
    split at he
    · have := ih _ _ he
      simp only [List.length_cons]
      exact ⟨by omega, by omega, this.2.2⟩
    · rcases List.mem_cons.1 he with rfl | he
      · exact ⟨Nat.le_refl _, by simp, ‹_›⟩
      · have := ih _ _ he
        simp only [List.length_cons]
        exact ⟨by omega, by omega, this.2.2⟩

theorem wf_entries (vs : List (BitVec w)) : ∀ a, wf (entries a vs) = true := by
  induction vs with
  | nil => intro a; rfl
  | cons v vs ih =>
    intro a
    simp only [entries]
    split
    · exact ih _
    · have h := ih (a + 1)
      rw [wf_iff] at *
      exact ⟨List.pairwise_cons.2 ⟨fun e he => (mem_entries vs _ e he).1, h.1⟩,
        fun e he => by
          rcases List.mem_cons.1 he with rfl | he
          · assumption
          · exact h.2 e he⟩

/-- A write keeps the canonical form. -/
theorem wf_write {m : Sparse w} (a : Nat) (vs : List (BitVec w)) (h : wf m = true) : wf (m.write a vs) = true := by
  refine wf_append (wf_append (wf_filter _ h) (wf_entries vs a) ?_) (wf_filter _ h) ?_
  · intro x hx y hy
    have h1 := (mem_entries vs a y hy).1
    have h2 := List.of_mem_filter hx
    simp at h2
    omega
  · intro x hx y hy
    have h2 := List.of_mem_filter hy
    simp at h2
    rcases List.mem_append.1 hx with hx | hx
    · have h1 := List.of_mem_filter hx
      simp at h1
      omega
    · have h1 := (mem_entries vs a x hx).2.1
      omega

/-- Writing one word keeps the form. -/
theorem wf_set {m : Sparse w} (k : Nat) (v : BitVec w) (h : wf m = true) : wf (m.set k v) = true := wf_write k [v] h

theorem get_append (a b : Sparse w) (k : Nat) :
    get (a ++ b) k = if (∃ e ∈ a, e.1 = k) then get a k else get b k := by
  induction a with
  | nil => simp
  | cons e a ih =>
    obtain ⟨j, x⟩ := e
    simp only [List.cons_append, get, ih, List.mem_cons, exists_eq_or_imp]
    by_cases h : k = j
    · subst h; simp
    · simp [h, Ne.symm h]

theorem get_of_not_mem {m : Sparse w} {k : Nat} (h : ∀ e ∈ m, e.1 ≠ k) : get m k = 0 := by
  induction m with
  | nil => rfl
  | cons e m ih =>
    obtain ⟨j, x⟩ := e
    have hj : k ≠ j := fun e => h (j, x) (by simp) e.symm
    simp only [get, hj, if_false]
    exact ih fun e he => h e (by simp [he])

/-- Entries left out at other indices do not change what is read. -/
theorem get_filter {m : Sparse w} {p : Nat × BitVec w → Bool} {k : Nat} (h : ∀ x, p (k, x) = true) :
    get (m.filter p) k = get m k := by
  induction m with
  | nil => rfl
  | cons e m ih =>
    obtain ⟨j, x⟩ := e
    by_cases hj : k = j
    · subst hj; simp [h, get]
    · by_cases hp : p (j, x) <;> simp [hp, get, hj, ih]

theorem get_entries (vs : List (BitVec w)) : ∀ a i, get (entries a vs) (a + i) = vs.getD i 0 := by
  induction vs with
  | nil => intro a i; rfl
  | cons v vs ih =>
    intro a i
    have up := ih (a + 1)
    simp only [entries]
    cases i with
    | zero =>
      split
      · rw [get_of_not_mem fun e he => ?_]
        · simp [*]
        · have := (mem_entries vs _ e he).1
          omega
      · simp [get]
    | succ i =>
      have e : a + (i + 1) = a + 1 + i := by omega
      split
      · rw [e, up]; simp
      · have : ¬ a + (i + 1) = a := by omega
        simp only [get, this, if_false]
        rw [e, up]; simp

/-- What is read after a write: the words written where they lie, and what was there before everywhere else. -/
theorem get_write (m : Sparse w) (a : Nat) (vs : List (BitVec w)) (k : Nat) :
    (m.write a vs).get k = if a ≤ k ∧ k < a + vs.length then vs.getD (k - a) 0 else m.get k := by
  by_cases hk : a ≤ k ∧ k < a + vs.length
  · rw [if_pos hk, write, List.append_assoc, get_append, if_neg]
    · rw [get_append]
      have e : a + (k - a) = k := by omega
      have g := get_entries vs a (k - a)
      rw [e] at g
      split
      · exact g
      · rename_i hn
        rw [← g, get_of_not_mem (m := entries a vs) fun e he h => hn ⟨e, he, h⟩]
        refine get_of_not_mem fun e he h => ?_
        have := List.of_mem_filter he
        simp at this
        omega
    · rintro ⟨e, he, h⟩
      have := List.of_mem_filter he
      simp at this
      omega
  · rw [if_neg hk, write]
    by_cases lt : k < a
    · rw [List.append_assoc, get_append]
      split
      · exact get_filter fun x => by simpa using lt
      · rename_i hn
        rw [get_of_not_mem, get_of_not_mem]
        · exact fun e he h => hn ⟨e, List.mem_filter.2 ⟨he, by simpa [h] using lt⟩, h⟩
        · intro e he h
          rcases List.mem_append.1 he with he | he
          · have := (mem_entries vs a e he).1
            omega
          · have := List.of_mem_filter he
            simp at this
            omega
    · have ge : a + vs.length ≤ k := by omega
      rw [get_append, if_neg]
      · exact get_filter fun x => by simpa using ge
      · rintro ⟨e, he, h⟩
        rcases List.mem_append.1 he with he | he
        · have := List.of_mem_filter he
          simp at this
          omega
        · have := (mem_entries vs a e he).2.1
          omega

/-- A write of one word. -/
theorem get_set (m : Sparse w) (k : Nat) (v : BitVec w) (j : Nat) : (m.set k v).get j = if j = k then v else m.get j := by
  rw [set, get_write]
  by_cases h : j = k
  · subst h; simp
  · have : ¬ (k ≤ j ∧ j < k + [v].length) := by simp; omega
    rw [if_neg this, if_neg h]

end Sparse

namespace Machine

/-! ### Tables by number -/

theorem tabGet_cons {α : Type} (e : Nat × α) (m : List (Nat × α)) (k : Nat) :
    tabGet (e :: m) k = if e.1 = k then some e.2 else tabGet m k := by
  by_cases h : e.1 = k <;> simp [tabGet, h]

theorem tabGet_append {α : Type} (a b : List (Nat × α)) (k : Nat) :
    tabGet (a ++ b) k = (tabGet a k).or (tabGet b k) := by
  induction a with
  | nil => simp [tabGet]
  | cons e a ih =>
    rw [List.cons_append, tabGet_cons, tabGet_cons, ih]
    split <;> simp

theorem tabGet_filter {α : Type} (m : List (Nat × α)) {p : Nat × α → Bool} {k : Nat} (h : ∀ x, p (k, x) = true) :
    tabGet (m.filter p) k = tabGet m k := by
  induction m with
  | nil => rfl
  | cons e m ih =>
    obtain ⟨j, x⟩ := e
    by_cases hj : j = k
    · subst hj; simp [h, tabGet_cons]
    · by_cases hp : p (j, x) <;> simp [hp, tabGet_cons, hj, ih]

theorem tabGet_filter_none {α : Type} (m : List (Nat × α)) {p : Nat × α → Bool} {k : Nat} (h : ∀ x, p (k, x) = false) :
    tabGet (m.filter p) k = none := by
  induction m with
  | nil => rfl
  | cons e m ih =>
    obtain ⟨j, x⟩ := e
    by_cases hj : j = k
    · subst hj; simp [h, ih]
    · by_cases hp : p (j, x) <;> simp [hp, tabGet_cons, hj, ih]

/-- What a table holds after an entry is set. -/
theorem tabGet_tabSet {α : Type} (m : List (Nat × α)) (k : Nat) (v : α) (j : Nat) :
    tabGet (tabSet m k v) j = if j = k then some v else tabGet m j := by
  rw [tabSet, tabGet_append, tabGet_cons]
  rcases Nat.lt_trichotomy j k with h | h | h
  · rw [tabGet_filter _ (by simp; omega), if_neg (by simp; omega), tabGet_filter_none _ (by simp; omega), if_neg (by omega)]
    simp
  · subst h
    rw [tabGet_filter_none _ (by simp)]
    simp
  · rw [tabGet_filter_none _ (by simp; omega), if_neg (by simp; omega), tabGet_filter _ (by simp; omega), if_neg (by omega)]
    simp

/-- What a table holds after an entry is removed. -/
theorem tabGet_tabDel {α : Type} (m : List (Nat × α)) (k j : Nat) :
    tabGet (tabDel m k) j = if j = k then none else tabGet m j := by
  rw [tabDel]
  split
  · rename_i h
    exact tabGet_filter_none _ (by simp [h])
  · rename_i h
    exact tabGet_filter _ (by simpa using fun _ => h)

/-- What a set holds after a number is added. -/
theorem mem_setAdd (m : NatSet) (k j : Nat) : j ∈ setAdd m k ↔ j = k ∨ j ∈ m := by
  simp only [setAdd, List.mem_append, List.mem_filter, List.mem_cons, decide_eq_true_eq]
  constructor
  · rintro (⟨h, -⟩ | h | ⟨h, -⟩) <;> simp_all
  · rintro (h | h)
    · simp [h]
    · rcases Nat.lt_trichotomy j k with x | x | x <;> simp_all

/-- What a set holds after a number is removed. -/
theorem mem_setDel (m : NatSet) (k j : Nat) : j ∈ setDel m k ↔ j ≠ k ∧ j ∈ m := by
  simp [setDel, and_comm]

/-! ### The memory of the device -/

@[simp] theorem Dev.tagUnit_mem (d : Dev) (key : Opener) (pa n u : Nat) : (d.tagUnit key pa n u).mem = d.mem := rfl

theorem Dev.scrubPage_wf {d : Dev} (pg : Nat) (h : Memory.wf d.mem = true) : Memory.wf (d.scrubPage pg).mem = true := by
  unfold Dev.scrubPage
  split
  · exact h
  · exact Sparse.wf_filter _ h

theorem Dev.settlePages_wf {d : Dev} (pa n : Nat) (h : Memory.wf d.mem = true) : Memory.wf (d.settlePages pa n).mem = true := by
  unfold Dev.settlePages
  generalize Dev.pagesOf pa n = ps
  induction ps generalizing d with
  | nil => exact h
  | cons p ps ih =>
    rw [List.foldl_cons]
    apply ih
    split
    · exact Dev.scrubPage_wf p h
    · exact h

theorem Dev.rawWrite_wf {d : Dev} (no pa : Nat) (bs : List Byte) (h : Memory.wf d.mem = true) :
    Memory.wf (d.rawWrite no pa bs).mem = true :=
  Sparse.wf_write pa bs (Dev.settlePages_wf pa bs.length h)

theorem Dev.foldl_tagUnit_mem (key : Opener) (pa n : Nat) (us : List Nat) (d : Dev) :
    (us.foldl (fun d u => d.tagUnit key pa n u) d).mem = d.mem := by
  induction us generalizing d with
  | nil => rfl
  | cons u us ih => rw [List.foldl_cons, ih, Dev.tagUnit_mem]

/-- A write under a key keeps the canonical form. -/
theorem Dev.writeMem_wf {d : Dev} (key : Opener) (pa : Nat) (bs : List Byte) (h : Memory.wf d.mem = true) :
    Memory.wf (d.writeMem key pa bs).mem = true := by
  have w := Sparse.wf_write pa bs (Dev.settlePages_wf pa bs.length h)
  unfold Dev.writeMem
  split
  · exact h
  · dsimp only
    split
    · exact w
    · rw [Dev.foldl_tagUnit_mem]
      exact w

/-- The granules that a restore puts back keep the canonical form. -/
theorem putGranules_wf {old new : Memory} (gs : List (Nat × Bool)) (hg : ∀ g ∈ gs, g.1 < 477) (ho : Memory.wf old = true)
    (hn : Memory.wf new = true) : Memory.wf (putGranules gs 1 old new) = true := by
  unfold putGranules
  induction gs generalizing old with
  | nil => exact ho
  | cons g gs ih =>
    have hg0 := hg g (by simp)
    rw [List.foldl_cons]
    apply ih (fun x hx => hg x (by simp [hx]))
    refine Sparse.wf_append (Sparse.wf_append (Sparse.wf_filter _ ho) (Sparse.wf_filter _ hn) ?_) (Sparse.wf_filter _ ho) ?_
    · intro x hx y hy
      have h1 := List.of_mem_filter hx
      have h2 := List.of_mem_filter hy
      simp at h1 h2
      omega
    · intro x hx y hy
      have h2 := List.of_mem_filter hy
      rcases List.mem_append.1 hx with hx | hx <;> have h1 := List.of_mem_filter hx <;> simp [Config.devBytes] at h1 h2 <;> omega

/-- The granules that a restore writes from a stream's bytes keep the canonical form. -/
theorem granuleBytes_wf (f : Nat → Byte) (gs : List (Nat × Bool)) (base : Nat) {m : Memory} (h : Memory.wf m = true) :
    Memory.wf (granuleBytes f base gs m) = true := by
  induction gs generalizing base m with
  | nil => exact h
  | cons g gs ih => exact ih _ (Sparse.wf_write _ _ h)

/-- Free bytes of a store that a new run finds are in the canonical form. -/
theorem freeStore_wf (fresh kind n : Nat) : Memory.wf (freeStore fresh kind n) = true := Sparse.wf_write 0 _ Sparse.wf_nil

/-- What is read of memory after bytes are written by hardware for itself (log 12). -/
theorem Dev.rawWrite_get (d : Dev) (no pa : Nat) (bs : List Byte) (a : Nat) :
    (d.rawWrite no pa bs).mem.get a =
      if pa ≤ a ∧ a < pa + bs.length then bs.getD (a - pa) 0 else (d.settlePages pa bs.length).mem.get a :=
  Sparse.get_write _ pa bs a

/-- Memory after reset is in the canonical form. -/
theorem reset_mem_wf : Memory.wf State.reset.d.mem = true := rfl

end Machine

end Sys2Proof
end

