-- ==== Sys2Proof/Laws/Ops.lean ====
section
/-! SUPPORT. What each shared operation can do: a slot operation, a command of the mailbox, the report of an error, the end of
caravans, the discarding of launches and the fall of an interface, each said once. -/

namespace Sys2Proof.Machine
open Sys2Proof

/-! ### Slot operations -/

/-- Everything a slot operation can do: the trap of its first failed check, its arrival alone, or its effect. -/
theorem slotStep_cases (x : SlotOp) (e : State → State) (s : State) :
    (∃ t, s.checks s.cur [(x.slot, x)] = some t ∧ slotStep x e s = .next (s.trap s.cur t false s.me.f.npc (some s.me.f.ib) 0)) ∨
    (s.checks s.cur [(x.slot, x)] = none ∧ s.me.runs x = false ∧ slotStep x e s = .next (s.squash x)) ∨
    (s.checks s.cur [(x.slot, x)] = none ∧ s.me.runs x = true ∧ slotStep x e s = .next (e s)) := by
  unfold slotStep
  cases h : s.checks s.cur [(x.slot, x)] with
  | some t => exact .inl ⟨t, rfl, rfl⟩
  | none => cases r : s.me.runs x <;> simp

/-- A slot operation always answers a next state. -/
theorem slotStep_next (x : SlotOp) (e : State → State) (s : State) : ∃ t, slotStep x e s = .next t := by
  rcases slotStep_cases x e s with ⟨t, -, h⟩ | ⟨-, -, h⟩ | ⟨-, -, h⟩ <;> exact ⟨_, h⟩

/-- An operation that passes its checks and is not squashed has its effect. -/
theorem slotStep_runs {x : SlotOp} {s : State} (e : State → State) (h : s.checks s.cur [(x.slot, x)] = none)
    (r : s.me.runs x = true) : slotStep x e s = .next (e s) := by
  simp [slotStep, h, r]

/-- An operation whose guard squashes it. -/
theorem slotStep_squashed {x : SlotOp} {s : State} (e : State → State) (h : s.checks s.cur [(x.slot, x)] = none)
    (r : s.me.runs x = false) : slotStep x e s = .next (s.squash x) := by
  simp [slotStep, h, r]

/-- An operation that fails a check. -/
theorem slotStep_trap {x : SlotOp} {s : State} {t : Trap} (e : State → State) (h : s.checks s.cur [(x.slot, x)] = some t) :
    slotStep x e s = .next (s.trap s.cur t false s.me.f.npc (some s.me.f.ib) 0) := by
  simp [slotStep, h]

/-! ### Commands -/

/-- Everything a write of CMD can do (R389, R396). -/
theorem command_cases (v : W64) (f : FnId) (c : Option (Bool × CmdBody)) (s : State) :
    (s.open f = false ∧ command v f c s = .next s) ∨
    (s.open f = true ∧ s.d.fns[f].status = 1 ∧ command v f c s = .next ((s.withCmd f v).modD fun d => d.modFn f fun x =>
      { x with cmds := x.cmds ++ [(v, x.opa, x.opb)] })) ∨
    (s.open f = true ∧ s.d.fns[f].status ≠ 1 ∧
      command v f c s = .next ((s.withCmd f v).doCommand f c s.d.fns[f].opa s.d.fns[f].opb)) := by
  cases o : s.open f with
  | false => exact .inl ⟨rfl, by unfold command; rw [o]; rfl⟩
  | true =>
    by_cases h : s.d.fns[f].status = 1
    · exact .inr (.inl ⟨rfl, h, by unfold command; rw [o, if_neg (by decide)]; exact if_pos h⟩)
    · exact .inr (.inr ⟨rfl, h, by unfold command; rw [o, if_neg (by decide)]; exact if_neg h⟩)

/-- Everything a command can do once it is performed (R389). -/
theorem State.doCommand_cases (s : State) (f : FnId) (c : Option (Bool × CmdBody)) (a b : W64) :
    (c = none ∧ s.doCommand f c a b = s.modD fun d => d.modFn f fun x => { x with status := 0x80 }) ∨
    ∃ long body, c = some (long, body) ∧
      ((∃ t, body { s.d.fns[f] with opa := a, opb := b } s = .ok t ∧
          s.doCommand f c a b = t.modD fun d => if long then d.modFn f fun x => { x with status := 1 } else d.endCommand f 0) ∨
       (∃ r, body { s.d.fns[f] with opa := a, opb := b } s = .error r ∧
          s.doCommand f c a b = s.modD fun d => d.endCommand f (0x80 + r))) := by
  match c with
  | none => exact .inl ⟨rfl, rfl⟩
  | some (long, body) =>
    refine .inr ⟨long, body, rfl, ?_⟩
    cases h : body { s.d.fns[f] with opa := a, opb := b } s with
    | ok t => exact .inl ⟨t, rfl, by simp only [State.doCommand, h]⟩
    | error r => exact .inr ⟨r, rfl, by simp only [State.doCommand, h]⟩

/-- The first condition that holds refuses; none holds where the command goes on. -/
theorem refuse_ok (cs : List (Bool × Nat)) : refuse cs = .ok () ↔ ∀ c ∈ cs, c.1 = false := by
  induction cs with
  | nil => simp [refuse]
  | cons c cs ih =>
    obtain ⟨b, r⟩ := c
    cases b <;> simp [refuse, ih]

/-- A step that may have to wait. -/
theorem orWait_cases (n : String) (s : Option State) :
    (∃ t, s = some t ∧ orWait n s = .next t) ∨ (s = none ∧ orWait n s = notEnabled n) := by
  cases s with
  | some t => exact .inl ⟨t, rfl, rfl⟩
  | none => exact .inr ⟨rfl, rfl⟩

/-! ### Reports, ended caravans, discarded launches and falls: what each leaves alone -/

theorem Dev.setErr_eq (d : Dev) (f : FnId) (v : W64) :
    d.setErr f v = d.modFn f (fun x => { x with err := v }) ∨
    d.setErr f v = { d.modFn f (fun x => { x with err := v }) with msix := (f, 1) :: d.msix } := by
  unfold Dev.setErr
  dsimp only
  split
  · exact .inl rfl
  · exact .inr rfl

@[simp] theorem Dev.setErr_mem (d : Dev) (h : FnId) (v : W64) : (d.setErr h v).mem = d.mem := by
  rcases d.setErr_eq h v with e | e <;> rw [e] <;> rfl
@[simp] theorem Dev.setErr_tags (d : Dev) (h : FnId) (v : W64) : (d.setErr h v).tags = d.tags := by
  rcases d.setErr_eq h v with e | e <;> rw [e] <;> rfl
@[simp] theorem Dev.setErr_memP (d : Dev) (h : FnId) (v : W64) : (d.setErr h v).memP = d.memP := by
  rcases d.setErr_eq h v with e | e <;> rw [e] <;> rfl
@[simp] theorem Dev.setErr_ws (d : Dev) (h : FnId) (v : W64) : (d.setErr h v).ws = d.ws := by
  rcases d.setErr_eq h v with e | e <;> rw [e] <;> rfl
@[simp] theorem Dev.setErr_wsP (d : Dev) (h : FnId) (v : W64) : (d.setErr h v).wsP = d.wsP := by
  rcases d.setErr_eq h v with e | e <;> rw [e] <;> rfl
@[simp] theorem Dev.setErr_refresh (d : Dev) (h : FnId) (v : W64) : (d.setErr h v).refresh = d.refresh := by
  rcases d.setErr_eq h v with e | e <;> rw [e] <;> rfl
@[simp] theorem Dev.setErr_tick (d : Dev) (h : FnId) (v : W64) : (d.setErr h v).tick = d.tick := by
  rcases d.setErr_eq h v with e | e <;> rw [e] <;> rfl
@[simp] theorem Dev.setErr_keys (d : Dev) (h : FnId) (v : W64) : (d.setErr h v).keys = d.keys := by
  rcases d.setErr_eq h v with e | e <;> rw [e] <;> rfl
@[simp] theorem Dev.setErr_ctxs (d : Dev) (h : FnId) (v : W64) : (d.setErr h v).ctxs = d.ctxs := by
  rcases d.setErr_eq h v with e | e <;> rw [e] <;> rfl
@[simp] theorem Dev.setErr_clus (d : Dev) (h : FnId) (v : W64) : (d.setErr h v).clus = d.clus := by
  rcases d.setErr_eq h v with e | e <;> rw [e] <;> rfl
@[simp] theorem Dev.setErr_grans (d : Dev) (h : FnId) (v : W64) : (d.setErr h v).grans = d.grans := by
  rcases d.setErr_eq h v with e | e <;> rw [e] <;> rfl
@[simp] theorem Dev.setErr_qs (d : Dev) (h : FnId) (v : W64) : (d.setErr h v).qs = d.qs := by
  rcases d.setErr_eq h v with e | e <;> rw [e] <;> rfl
@[simp] theorem Dev.setErr_slots (d : Dev) (h : FnId) (v : W64) : (d.setErr h v).slots = d.slots := by
  rcases d.setErr_eq h v with e | e <;> rw [e] <;> rfl
@[simp] theorem Dev.setErr_cars (d : Dev) (h : FnId) (v : W64) : (d.setErr h v).cars = d.cars := by
  rcases d.setErr_eq h v with e | e <;> rw [e] <;> rfl
@[simp] theorem Dev.setErr_recs (d : Dev) (h : FnId) (v : W64) : (d.setErr h v).recs = d.recs := by
  rcases d.setErr_eq h v with e | e <;> rw [e] <;> rfl
@[simp] theorem Dev.setErr_seif (d : Dev) (h : FnId) (v : W64) : (d.setErr h v).seif = d.seif := by
  rcases d.setErr_eq h v with e | e <;> rw [e] <;> rfl
@[simp] theorem Dev.setErr_wins (d : Dev) (h : FnId) (v : W64) : (d.setErr h v).wins = d.wins := by
  rcases d.setErr_eq h v with e | e <;> rw [e] <;> rfl
@[simp] theorem Dev.setErr_locs (d : Dev) (h : FnId) (v : W64) : (d.setErr h v).locs = d.locs := by
  rcases d.setErr_eq h v with e | e <;> rw [e] <;> rfl
@[simp] theorem Dev.setErr_scrubG (d : Dev) (h : FnId) (v : W64) : (d.setErr h v).scrubG = d.scrubG := by
  rcases d.setErr_eq h v with e | e <;> rw [e] <;> rfl
@[simp] theorem Dev.setErr_scrubbed (d : Dev) (h : FnId) (v : W64) : (d.setErr h v).scrubbed = d.scrubbed := by
  rcases d.setErr_eq h v with e | e <;> rw [e] <;> rfl
@[simp] theorem Dev.setErr_moves (d : Dev) (h : FnId) (v : W64) : (d.setErr h v).moves = d.moves := by
  rcases d.setErr_eq h v with e | e <;> rw [e] <;> rfl
@[simp] theorem Dev.setErr_moving (d : Dev) (h : FnId) (v : W64) : (d.setErr h v).moving = d.moving := by
  rcases d.setErr_eq h v with e | e <;> rw [e] <;> rfl
@[simp] theorem Dev.setErr_moved (d : Dev) (h : FnId) (v : W64) : (d.setErr h v).moved = d.moved := by
  rcases d.setErr_eq h v with e | e <;> rw [e] <;> rfl
@[simp] theorem Dev.setErr_lost (d : Dev) (h : FnId) (v : W64) : (d.setErr h v).lost = d.lost := by
  rcases d.setErr_eq h v with e | e <;> rw [e] <;> rfl
@[simp] theorem Dev.setErr_hbm (d : Dev) (h : FnId) (v : W64) : (d.setErr h v).hbm = d.hbm := by
  rcases d.setErr_eq h v with e | e <;> rw [e] <;> rfl
@[simp] theorem Dev.setErr_streams (d : Dev) (h : FnId) (v : W64) : (d.setErr h v).streams = d.streams := by
  rcases d.setErr_eq h v with e | e <;> rw [e] <;> rfl
@[simp] theorem Dev.setErr_ckpts (d : Dev) (h : FnId) (v : W64) : (d.setErr h v).ckpts = d.ckpts := by
  rcases d.setErr_eq h v with e | e <;> rw [e] <;> rfl
@[simp] theorem Dev.setErr_tmax (d : Dev) (h : FnId) (v : W64) : (d.setErr h v).tmax = d.tmax := by
  rcases d.setErr_eq h v with e | e <;> rw [e] <;> rfl
@[simp] theorem Dev.setErr_warn (d : Dev) (h : FnId) (v : W64) : (d.setErr h v).warn = d.warn := by
  rcases d.setErr_eq h v with e | e <;> rw [e] <;> rfl
@[simp] theorem Dev.setErr_admHold (d : Dev) (h : FnId) (v : W64) : (d.setErr h v).admHold = d.admHold := by
  rcases d.setErr_eq h v with e | e <;> rw [e] <;> rfl
@[simp] theorem Dev.setErr_inReset (d : Dev) (h : FnId) (v : W64) : (d.setErr h v).inReset = d.inReset := by
  rcases d.setErr_eq h v with e | e <;> rw [e] <;> rfl
@[simp] theorem Dev.setErr_resps (d : Dev) (h : FnId) (v : W64) : (d.setErr h v).resps = d.resps := by
  rcases d.setErr_eq h v with e | e <;> rw [e] <;> rfl
@[simp] theorem Dev.report_mem (d : Dev) (h : FnId) (v : W64) : (d.report h v).mem = d.mem := d.setErr_mem h _
@[simp] theorem Dev.report_tags (d : Dev) (h : FnId) (v : W64) : (d.report h v).tags = d.tags := d.setErr_tags h _
@[simp] theorem Dev.report_memP (d : Dev) (h : FnId) (v : W64) : (d.report h v).memP = d.memP := d.setErr_memP h _
@[simp] theorem Dev.report_ws (d : Dev) (h : FnId) (v : W64) : (d.report h v).ws = d.ws := d.setErr_ws h _
@[simp] theorem Dev.report_wsP (d : Dev) (h : FnId) (v : W64) : (d.report h v).wsP = d.wsP := d.setErr_wsP h _
@[simp] theorem Dev.report_refresh (d : Dev) (h : FnId) (v : W64) : (d.report h v).refresh = d.refresh := d.setErr_refresh h _
@[simp] theorem Dev.report_tick (d : Dev) (h : FnId) (v : W64) : (d.report h v).tick = d.tick := d.setErr_tick h _
@[simp] theorem Dev.report_keys (d : Dev) (h : FnId) (v : W64) : (d.report h v).keys = d.keys := d.setErr_keys h _
@[simp] theorem Dev.report_ctxs (d : Dev) (h : FnId) (v : W64) : (d.report h v).ctxs = d.ctxs := d.setErr_ctxs h _
@[simp] theorem Dev.report_clus (d : Dev) (h : FnId) (v : W64) : (d.report h v).clus = d.clus := d.setErr_clus h _
@[simp] theorem Dev.report_grans (d : Dev) (h : FnId) (v : W64) : (d.report h v).grans = d.grans := d.setErr_grans h _
@[simp] theorem Dev.report_qs (d : Dev) (h : FnId) (v : W64) : (d.report h v).qs = d.qs := d.setErr_qs h _
@[simp] theorem Dev.report_slots (d : Dev) (h : FnId) (v : W64) : (d.report h v).slots = d.slots := d.setErr_slots h _
@[simp] theorem Dev.report_cars (d : Dev) (h : FnId) (v : W64) : (d.report h v).cars = d.cars := d.setErr_cars h _
@[simp] theorem Dev.report_recs (d : Dev) (h : FnId) (v : W64) : (d.report h v).recs = d.recs := d.setErr_recs h _
@[simp] theorem Dev.report_seif (d : Dev) (h : FnId) (v : W64) : (d.report h v).seif = d.seif := d.setErr_seif h _
@[simp] theorem Dev.report_wins (d : Dev) (h : FnId) (v : W64) : (d.report h v).wins = d.wins := d.setErr_wins h _
@[simp] theorem Dev.report_locs (d : Dev) (h : FnId) (v : W64) : (d.report h v).locs = d.locs := d.setErr_locs h _
@[simp] theorem Dev.report_scrubG (d : Dev) (h : FnId) (v : W64) : (d.report h v).scrubG = d.scrubG := d.setErr_scrubG h _
@[simp] theorem Dev.report_scrubbed (d : Dev) (h : FnId) (v : W64) : (d.report h v).scrubbed = d.scrubbed := d.setErr_scrubbed h _
@[simp] theorem Dev.report_moves (d : Dev) (h : FnId) (v : W64) : (d.report h v).moves = d.moves := d.setErr_moves h _
@[simp] theorem Dev.report_moving (d : Dev) (h : FnId) (v : W64) : (d.report h v).moving = d.moving := d.setErr_moving h _
@[simp] theorem Dev.report_moved (d : Dev) (h : FnId) (v : W64) : (d.report h v).moved = d.moved := d.setErr_moved h _
@[simp] theorem Dev.report_lost (d : Dev) (h : FnId) (v : W64) : (d.report h v).lost = d.lost := d.setErr_lost h _
@[simp] theorem Dev.report_hbm (d : Dev) (h : FnId) (v : W64) : (d.report h v).hbm = d.hbm := d.setErr_hbm h _
@[simp] theorem Dev.report_streams (d : Dev) (h : FnId) (v : W64) : (d.report h v).streams = d.streams := d.setErr_streams h _
@[simp] theorem Dev.report_ckpts (d : Dev) (h : FnId) (v : W64) : (d.report h v).ckpts = d.ckpts := d.setErr_ckpts h _
@[simp] theorem Dev.report_tmax (d : Dev) (h : FnId) (v : W64) : (d.report h v).tmax = d.tmax := d.setErr_tmax h _
@[simp] theorem Dev.report_warn (d : Dev) (h : FnId) (v : W64) : (d.report h v).warn = d.warn := d.setErr_warn h _
@[simp] theorem Dev.report_admHold (d : Dev) (h : FnId) (v : W64) : (d.report h v).admHold = d.admHold := d.setErr_admHold h _
@[simp] theorem Dev.report_inReset (d : Dev) (h : FnId) (v : W64) : (d.report h v).inReset = d.inReset := d.setErr_inReset h _
@[simp] theorem Dev.report_resps (d : Dev) (h : FnId) (v : W64) : (d.report h v).resps = d.resps := d.setErr_resps h _
@[simp] theorem Dev.queueErr_mem (d : Dev) (q : Fin 64) : (d.queueErr q).mem = d.mem := Dev.report_mem _ _ _
@[simp] theorem Dev.queueErr_tags (d : Dev) (q : Fin 64) : (d.queueErr q).tags = d.tags := Dev.report_tags _ _ _
@[simp] theorem Dev.queueErr_memP (d : Dev) (q : Fin 64) : (d.queueErr q).memP = d.memP := Dev.report_memP _ _ _
@[simp] theorem Dev.queueErr_ws (d : Dev) (q : Fin 64) : (d.queueErr q).ws = d.ws := Dev.report_ws _ _ _
@[simp] theorem Dev.queueErr_wsP (d : Dev) (q : Fin 64) : (d.queueErr q).wsP = d.wsP := Dev.report_wsP _ _ _
@[simp] theorem Dev.queueErr_refresh (d : Dev) (q : Fin 64) : (d.queueErr q).refresh = d.refresh := Dev.report_refresh _ _ _
@[simp] theorem Dev.queueErr_tick (d : Dev) (q : Fin 64) : (d.queueErr q).tick = d.tick := Dev.report_tick _ _ _
@[simp] theorem Dev.queueErr_keys (d : Dev) (q : Fin 64) : (d.queueErr q).keys = d.keys := Dev.report_keys _ _ _
@[simp] theorem Dev.queueErr_ctxs (d : Dev) (q : Fin 64) : (d.queueErr q).ctxs = d.ctxs := Dev.report_ctxs _ _ _
@[simp] theorem Dev.queueErr_clus (d : Dev) (q : Fin 64) : (d.queueErr q).clus = d.clus := Dev.report_clus _ _ _
@[simp] theorem Dev.queueErr_grans (d : Dev) (q : Fin 64) : (d.queueErr q).grans = d.grans := Dev.report_grans _ _ _
@[simp] theorem Dev.queueErr_slots (d : Dev) (q : Fin 64) : (d.queueErr q).slots = d.slots := Dev.report_slots _ _ _
@[simp] theorem Dev.queueErr_cars (d : Dev) (q : Fin 64) : (d.queueErr q).cars = d.cars := Dev.report_cars _ _ _
@[simp] theorem Dev.queueErr_recs (d : Dev) (q : Fin 64) : (d.queueErr q).recs = d.recs := Dev.report_recs _ _ _
@[simp] theorem Dev.queueErr_seif (d : Dev) (q : Fin 64) : (d.queueErr q).seif = d.seif := Dev.report_seif _ _ _
@[simp] theorem Dev.queueErr_wins (d : Dev) (q : Fin 64) : (d.queueErr q).wins = d.wins := Dev.report_wins _ _ _
@[simp] theorem Dev.queueErr_locs (d : Dev) (q : Fin 64) : (d.queueErr q).locs = d.locs := Dev.report_locs _ _ _
@[simp] theorem Dev.queueErr_scrubG (d : Dev) (q : Fin 64) : (d.queueErr q).scrubG = d.scrubG := Dev.report_scrubG _ _ _
@[simp] theorem Dev.queueErr_scrubbed (d : Dev) (q : Fin 64) : (d.queueErr q).scrubbed = d.scrubbed := Dev.report_scrubbed _ _ _
@[simp] theorem Dev.queueErr_moves (d : Dev) (q : Fin 64) : (d.queueErr q).moves = d.moves := Dev.report_moves _ _ _
@[simp] theorem Dev.queueErr_moving (d : Dev) (q : Fin 64) : (d.queueErr q).moving = d.moving := Dev.report_moving _ _ _
@[simp] theorem Dev.queueErr_moved (d : Dev) (q : Fin 64) : (d.queueErr q).moved = d.moved := Dev.report_moved _ _ _
@[simp] theorem Dev.queueErr_lost (d : Dev) (q : Fin 64) : (d.queueErr q).lost = d.lost := Dev.report_lost _ _ _
@[simp] theorem Dev.queueErr_hbm (d : Dev) (q : Fin 64) : (d.queueErr q).hbm = d.hbm := Dev.report_hbm _ _ _
@[simp] theorem Dev.queueErr_streams (d : Dev) (q : Fin 64) : (d.queueErr q).streams = d.streams := Dev.report_streams _ _ _
@[simp] theorem Dev.queueErr_ckpts (d : Dev) (q : Fin 64) : (d.queueErr q).ckpts = d.ckpts := Dev.report_ckpts _ _ _
@[simp] theorem Dev.queueErr_tmax (d : Dev) (q : Fin 64) : (d.queueErr q).tmax = d.tmax := Dev.report_tmax _ _ _
@[simp] theorem Dev.queueErr_warn (d : Dev) (q : Fin 64) : (d.queueErr q).warn = d.warn := Dev.report_warn _ _ _
@[simp] theorem Dev.queueErr_admHold (d : Dev) (q : Fin 64) : (d.queueErr q).admHold = d.admHold := Dev.report_admHold _ _ _
@[simp] theorem Dev.queueErr_inReset (d : Dev) (q : Fin 64) : (d.queueErr q).inReset = d.inReset := Dev.report_inReset _ _ _
@[simp] theorem Dev.queueErr_resps (d : Dev) (q : Fin 64) : (d.queueErr q).resps = d.resps := Dev.report_resps _ _ _

/-- A property of the device that discarding one queue's launches keeps is kept by discarding those of many. -/
theorem Dev.dropLaunches_keeps (P : Dev → Prop) (h : ∀ (d : Dev) (q : Fin 64), P d →
    P ({ d with qs := d.qs.set q { d.qs[q] with recs := [] } }.queueErr q)) (d : Dev) (p : LQueue → Bool) (hd : P d) :
    P (d.dropLaunches p) := by
  unfold Dev.dropLaunches
  generalize List.finRange 64 = qs
  induction qs generalizing d with
  | nil => exact hd
  | cons q qs ih =>
    rw [List.foldl_cons]
    apply ih
    split
    · exact h d q hd
    · exact hd

@[simp] theorem Dev.dropLaunches_mem (d : Dev) (p : LQueue → Bool) : (d.dropLaunches p).mem = d.mem :=
  Dev.dropLaunches_keeps (fun e => e.mem = d.mem) (fun e q h => by rw [Dev.queueErr_mem]; exact h) d p rfl
@[simp] theorem Dev.dropLaunches_tags (d : Dev) (p : LQueue → Bool) : (d.dropLaunches p).tags = d.tags :=
  Dev.dropLaunches_keeps (fun e => e.tags = d.tags) (fun e q h => by rw [Dev.queueErr_tags]; exact h) d p rfl
@[simp] theorem Dev.dropLaunches_memP (d : Dev) (p : LQueue → Bool) : (d.dropLaunches p).memP = d.memP :=
  Dev.dropLaunches_keeps (fun e => e.memP = d.memP) (fun e q h => by rw [Dev.queueErr_memP]; exact h) d p rfl
@[simp] theorem Dev.dropLaunches_ws (d : Dev) (p : LQueue → Bool) : (d.dropLaunches p).ws = d.ws :=
  Dev.dropLaunches_keeps (fun e => e.ws = d.ws) (fun e q h => by rw [Dev.queueErr_ws]; exact h) d p rfl
@[simp] theorem Dev.dropLaunches_wsP (d : Dev) (p : LQueue → Bool) : (d.dropLaunches p).wsP = d.wsP :=
  Dev.dropLaunches_keeps (fun e => e.wsP = d.wsP) (fun e q h => by rw [Dev.queueErr_wsP]; exact h) d p rfl
@[simp] theorem Dev.dropLaunches_refresh (d : Dev) (p : LQueue → Bool) : (d.dropLaunches p).refresh = d.refresh :=
  Dev.dropLaunches_keeps (fun e => e.refresh = d.refresh) (fun e q h => by rw [Dev.queueErr_refresh]; exact h) d p rfl
@[simp] theorem Dev.dropLaunches_tick (d : Dev) (p : LQueue → Bool) : (d.dropLaunches p).tick = d.tick :=
  Dev.dropLaunches_keeps (fun e => e.tick = d.tick) (fun e q h => by rw [Dev.queueErr_tick]; exact h) d p rfl
@[simp] theorem Dev.dropLaunches_keys (d : Dev) (p : LQueue → Bool) : (d.dropLaunches p).keys = d.keys :=
  Dev.dropLaunches_keeps (fun e => e.keys = d.keys) (fun e q h => by rw [Dev.queueErr_keys]; exact h) d p rfl
@[simp] theorem Dev.dropLaunches_ctxs (d : Dev) (p : LQueue → Bool) : (d.dropLaunches p).ctxs = d.ctxs :=
  Dev.dropLaunches_keeps (fun e => e.ctxs = d.ctxs) (fun e q h => by rw [Dev.queueErr_ctxs]; exact h) d p rfl
@[simp] theorem Dev.dropLaunches_clus (d : Dev) (p : LQueue → Bool) : (d.dropLaunches p).clus = d.clus :=
  Dev.dropLaunches_keeps (fun e => e.clus = d.clus) (fun e q h => by rw [Dev.queueErr_clus]; exact h) d p rfl
@[simp] theorem Dev.dropLaunches_grans (d : Dev) (p : LQueue → Bool) : (d.dropLaunches p).grans = d.grans :=
  Dev.dropLaunches_keeps (fun e => e.grans = d.grans) (fun e q h => by rw [Dev.queueErr_grans]; exact h) d p rfl
@[simp] theorem Dev.dropLaunches_slots (d : Dev) (p : LQueue → Bool) : (d.dropLaunches p).slots = d.slots :=
  Dev.dropLaunches_keeps (fun e => e.slots = d.slots) (fun e q h => by rw [Dev.queueErr_slots]; exact h) d p rfl
@[simp] theorem Dev.dropLaunches_cars (d : Dev) (p : LQueue → Bool) : (d.dropLaunches p).cars = d.cars :=
  Dev.dropLaunches_keeps (fun e => e.cars = d.cars) (fun e q h => by rw [Dev.queueErr_cars]; exact h) d p rfl
@[simp] theorem Dev.dropLaunches_recs (d : Dev) (p : LQueue → Bool) : (d.dropLaunches p).recs = d.recs :=
  Dev.dropLaunches_keeps (fun e => e.recs = d.recs) (fun e q h => by rw [Dev.queueErr_recs]; exact h) d p rfl
@[simp] theorem Dev.dropLaunches_seif (d : Dev) (p : LQueue → Bool) : (d.dropLaunches p).seif = d.seif :=
  Dev.dropLaunches_keeps (fun e => e.seif = d.seif) (fun e q h => by rw [Dev.queueErr_seif]; exact h) d p rfl
@[simp] theorem Dev.dropLaunches_wins (d : Dev) (p : LQueue → Bool) : (d.dropLaunches p).wins = d.wins :=
  Dev.dropLaunches_keeps (fun e => e.wins = d.wins) (fun e q h => by rw [Dev.queueErr_wins]; exact h) d p rfl
@[simp] theorem Dev.dropLaunches_locs (d : Dev) (p : LQueue → Bool) : (d.dropLaunches p).locs = d.locs :=
  Dev.dropLaunches_keeps (fun e => e.locs = d.locs) (fun e q h => by rw [Dev.queueErr_locs]; exact h) d p rfl
@[simp] theorem Dev.dropLaunches_scrubG (d : Dev) (p : LQueue → Bool) : (d.dropLaunches p).scrubG = d.scrubG :=
  Dev.dropLaunches_keeps (fun e => e.scrubG = d.scrubG) (fun e q h => by rw [Dev.queueErr_scrubG]; exact h) d p rfl
@[simp] theorem Dev.dropLaunches_scrubbed (d : Dev) (p : LQueue → Bool) : (d.dropLaunches p).scrubbed = d.scrubbed :=
  Dev.dropLaunches_keeps (fun e => e.scrubbed = d.scrubbed) (fun e q h => by rw [Dev.queueErr_scrubbed]; exact h) d p rfl
@[simp] theorem Dev.dropLaunches_moves (d : Dev) (p : LQueue → Bool) : (d.dropLaunches p).moves = d.moves :=
  Dev.dropLaunches_keeps (fun e => e.moves = d.moves) (fun e q h => by rw [Dev.queueErr_moves]; exact h) d p rfl
@[simp] theorem Dev.dropLaunches_moving (d : Dev) (p : LQueue → Bool) : (d.dropLaunches p).moving = d.moving :=
  Dev.dropLaunches_keeps (fun e => e.moving = d.moving) (fun e q h => by rw [Dev.queueErr_moving]; exact h) d p rfl
@[simp] theorem Dev.dropLaunches_moved (d : Dev) (p : LQueue → Bool) : (d.dropLaunches p).moved = d.moved :=
  Dev.dropLaunches_keeps (fun e => e.moved = d.moved) (fun e q h => by rw [Dev.queueErr_moved]; exact h) d p rfl
@[simp] theorem Dev.dropLaunches_lost (d : Dev) (p : LQueue → Bool) : (d.dropLaunches p).lost = d.lost :=
  Dev.dropLaunches_keeps (fun e => e.lost = d.lost) (fun e q h => by rw [Dev.queueErr_lost]; exact h) d p rfl
@[simp] theorem Dev.dropLaunches_hbm (d : Dev) (p : LQueue → Bool) : (d.dropLaunches p).hbm = d.hbm :=
  Dev.dropLaunches_keeps (fun e => e.hbm = d.hbm) (fun e q h => by rw [Dev.queueErr_hbm]; exact h) d p rfl
@[simp] theorem Dev.dropLaunches_streams (d : Dev) (p : LQueue → Bool) : (d.dropLaunches p).streams = d.streams :=
  Dev.dropLaunches_keeps (fun e => e.streams = d.streams) (fun e q h => by rw [Dev.queueErr_streams]; exact h) d p rfl
@[simp] theorem Dev.dropLaunches_ckpts (d : Dev) (p : LQueue → Bool) : (d.dropLaunches p).ckpts = d.ckpts :=
  Dev.dropLaunches_keeps (fun e => e.ckpts = d.ckpts) (fun e q h => by rw [Dev.queueErr_ckpts]; exact h) d p rfl
@[simp] theorem Dev.dropLaunches_tmax (d : Dev) (p : LQueue → Bool) : (d.dropLaunches p).tmax = d.tmax :=
  Dev.dropLaunches_keeps (fun e => e.tmax = d.tmax) (fun e q h => by rw [Dev.queueErr_tmax]; exact h) d p rfl
@[simp] theorem Dev.dropLaunches_warn (d : Dev) (p : LQueue → Bool) : (d.dropLaunches p).warn = d.warn :=
  Dev.dropLaunches_keeps (fun e => e.warn = d.warn) (fun e q h => by rw [Dev.queueErr_warn]; exact h) d p rfl
@[simp] theorem Dev.dropLaunches_admHold (d : Dev) (p : LQueue → Bool) : (d.dropLaunches p).admHold = d.admHold :=
  Dev.dropLaunches_keeps (fun e => e.admHold = d.admHold) (fun e q h => by rw [Dev.queueErr_admHold]; exact h) d p rfl
@[simp] theorem Dev.dropLaunches_inReset (d : Dev) (p : LQueue → Bool) : (d.dropLaunches p).inReset = d.inReset :=
  Dev.dropLaunches_keeps (fun e => e.inReset = d.inReset) (fun e q h => by rw [Dev.queueErr_inReset]; exact h) d p rfl
@[simp] theorem Dev.dropLaunches_resps (d : Dev) (p : LQueue → Bool) : (d.dropLaunches p).resps = d.resps :=
  Dev.dropLaunches_keeps (fun e => e.resps = d.resps) (fun e q h => by rw [Dev.queueErr_resps]; exact h) d p rfl

theorem Dev.foldl_dropCar_keeps (P : Dev → Prop) (h : ∀ (d : Dev) (id : Nat), P d → P (d.dropCar id)) (ids : List Nat) (d : Dev)
    (hd : P d) : P (ids.foldl Dev.dropCar d) := by
  induction ids generalizing d with
  | nil => exact hd
  | cons i ids ih => exact ih _ (h d i hd)

/-- The samples of freezes and holds that are cut short reach only the clusters' monitors (R293). -/
theorem State.foldl_sampleCut (cs : List CoreId) (s : State) :
    ∃ m, cs.foldl State.sampleCut s = { s with d := { s.d with monC := m } } := by
  induction cs generalizing s with
  | nil => exact ⟨_, rfl⟩
  | cons c cs ih =>
    have one : ∃ m, s.sampleCut c = { s with d := { s.d with monC := m } } := by
      have d : ∀ n vs, ∃ m, s.d.sample (clusOf c) n none vs = { s.d with monC := m } := fun n vs => by
        unfold Dev.sample
        dsimp only
        split
        · exact ⟨_, rfl⟩
        · exact ⟨s.d.monC, rfl⟩
      unfold State.sampleCut
      dsimp only
      split
      · exact (d _ _).imp fun m h => by rw [State.modD, h]
      · split
        · exact (d _ _).imp fun m h => by rw [State.modD, h]
        · exact ⟨s.d.monC, rfl⟩
    obtain ⟨m, h⟩ := one
    rw [List.foldl_cons, h]
    exact ih _

/-- A property that dropping a caravan keeps, and that no monitor enters, is kept where caravans end. -/
theorem State.endCars_keeps (P : Dev → Prop) (h : ∀ (d : Dev) (id : Nat), P d → P (d.dropCar id)) (s : State)
    (p : Caravan → Bool) (hd : ∀ m, P { s.d with monC := m }) : P (s.endCars p).d := by
  obtain ⟨m, e⟩ := State.foldl_sampleCut ((List.finRange 320).filter fun c =>
    (s.core c).car.any ((s.d.cars.filter p).map Caravan.id).contains) s
  unfold State.endCars
  dsimp only
  rw [e]
  exact Dev.foldl_dropCar_keeps P h _ _ (hd m)

@[simp] theorem State.endCars_mem (s : State) (p : Caravan → Bool) : (s.endCars p).d.mem = s.d.mem :=
  State.endCars_keeps (fun e => e.mem = s.d.mem) (fun _ _ h => h) s p fun _ => rfl
@[simp] theorem State.endCars_tags (s : State) (p : Caravan → Bool) : (s.endCars p).d.tags = s.d.tags :=
  State.endCars_keeps (fun e => e.tags = s.d.tags) (fun _ _ h => h) s p fun _ => rfl
@[simp] theorem State.endCars_memP (s : State) (p : Caravan → Bool) : (s.endCars p).d.memP = s.d.memP :=
  State.endCars_keeps (fun e => e.memP = s.d.memP) (fun _ _ h => h) s p fun _ => rfl
@[simp] theorem State.endCars_ws (s : State) (p : Caravan → Bool) : (s.endCars p).d.ws = s.d.ws :=
  State.endCars_keeps (fun e => e.ws = s.d.ws) (fun _ _ h => h) s p fun _ => rfl
@[simp] theorem State.endCars_wsP (s : State) (p : Caravan → Bool) : (s.endCars p).d.wsP = s.d.wsP :=
  State.endCars_keeps (fun e => e.wsP = s.d.wsP) (fun _ _ h => h) s p fun _ => rfl
@[simp] theorem State.endCars_refresh (s : State) (p : Caravan → Bool) : (s.endCars p).d.refresh = s.d.refresh :=
  State.endCars_keeps (fun e => e.refresh = s.d.refresh) (fun _ _ h => h) s p fun _ => rfl
@[simp] theorem State.endCars_tick (s : State) (p : Caravan → Bool) : (s.endCars p).d.tick = s.d.tick :=
  State.endCars_keeps (fun e => e.tick = s.d.tick) (fun _ _ h => h) s p fun _ => rfl
@[simp] theorem State.endCars_keys (s : State) (p : Caravan → Bool) : (s.endCars p).d.keys = s.d.keys :=
  State.endCars_keeps (fun e => e.keys = s.d.keys) (fun _ _ h => h) s p fun _ => rfl
@[simp] theorem State.endCars_ctxs (s : State) (p : Caravan → Bool) : (s.endCars p).d.ctxs = s.d.ctxs :=
  State.endCars_keeps (fun e => e.ctxs = s.d.ctxs) (fun _ _ h => h) s p fun _ => rfl
@[simp] theorem State.endCars_clus (s : State) (p : Caravan → Bool) : (s.endCars p).d.clus = s.d.clus :=
  State.endCars_keeps (fun e => e.clus = s.d.clus) (fun _ _ h => h) s p fun _ => rfl
@[simp] theorem State.endCars_grans (s : State) (p : Caravan → Bool) : (s.endCars p).d.grans = s.d.grans :=
  State.endCars_keeps (fun e => e.grans = s.d.grans) (fun _ _ h => h) s p fun _ => rfl
@[simp] theorem State.endCars_qs (s : State) (p : Caravan → Bool) : (s.endCars p).d.qs = s.d.qs :=
  State.endCars_keeps (fun e => e.qs = s.d.qs) (fun _ _ h => h) s p fun _ => rfl
@[simp] theorem State.endCars_slots (s : State) (p : Caravan → Bool) : (s.endCars p).d.slots = s.d.slots :=
  State.endCars_keeps (fun e => e.slots = s.d.slots) (fun _ _ h => h) s p fun _ => rfl
@[simp] theorem State.endCars_seif (s : State) (p : Caravan → Bool) : (s.endCars p).d.seif = s.d.seif :=
  State.endCars_keeps (fun e => e.seif = s.d.seif) (fun _ _ h => h) s p fun _ => rfl
@[simp] theorem State.endCars_wins (s : State) (p : Caravan → Bool) : (s.endCars p).d.wins = s.d.wins :=
  State.endCars_keeps (fun e => e.wins = s.d.wins) (fun _ _ h => h) s p fun _ => rfl
@[simp] theorem State.endCars_locs (s : State) (p : Caravan → Bool) : (s.endCars p).d.locs = s.d.locs :=
  State.endCars_keeps (fun e => e.locs = s.d.locs) (fun _ _ h => h) s p fun _ => rfl
@[simp] theorem State.endCars_scrubG (s : State) (p : Caravan → Bool) : (s.endCars p).d.scrubG = s.d.scrubG :=
  State.endCars_keeps (fun e => e.scrubG = s.d.scrubG) (fun _ _ h => h) s p fun _ => rfl
@[simp] theorem State.endCars_scrubbed (s : State) (p : Caravan → Bool) : (s.endCars p).d.scrubbed = s.d.scrubbed :=
  State.endCars_keeps (fun e => e.scrubbed = s.d.scrubbed) (fun _ _ h => h) s p fun _ => rfl
@[simp] theorem State.endCars_moves (s : State) (p : Caravan → Bool) : (s.endCars p).d.moves = s.d.moves :=
  State.endCars_keeps (fun e => e.moves = s.d.moves) (fun _ _ h => h) s p fun _ => rfl
@[simp] theorem State.endCars_moving (s : State) (p : Caravan → Bool) : (s.endCars p).d.moving = s.d.moving :=
  State.endCars_keeps (fun e => e.moving = s.d.moving) (fun _ _ h => h) s p fun _ => rfl
@[simp] theorem State.endCars_moved (s : State) (p : Caravan → Bool) : (s.endCars p).d.moved = s.d.moved :=
  State.endCars_keeps (fun e => e.moved = s.d.moved) (fun _ _ h => h) s p fun _ => rfl
@[simp] theorem State.endCars_lost (s : State) (p : Caravan → Bool) : (s.endCars p).d.lost = s.d.lost :=
  State.endCars_keeps (fun e => e.lost = s.d.lost) (fun _ _ h => h) s p fun _ => rfl
@[simp] theorem State.endCars_hbm (s : State) (p : Caravan → Bool) : (s.endCars p).d.hbm = s.d.hbm :=
  State.endCars_keeps (fun e => e.hbm = s.d.hbm) (fun _ _ h => h) s p fun _ => rfl
@[simp] theorem State.endCars_streams (s : State) (p : Caravan → Bool) : (s.endCars p).d.streams = s.d.streams :=
  State.endCars_keeps (fun e => e.streams = s.d.streams) (fun _ _ h => h) s p fun _ => rfl
@[simp] theorem State.endCars_ckpts (s : State) (p : Caravan → Bool) : (s.endCars p).d.ckpts = s.d.ckpts :=
  State.endCars_keeps (fun e => e.ckpts = s.d.ckpts) (fun _ _ h => h) s p fun _ => rfl
@[simp] theorem State.endCars_tmax (s : State) (p : Caravan → Bool) : (s.endCars p).d.tmax = s.d.tmax :=
  State.endCars_keeps (fun e => e.tmax = s.d.tmax) (fun _ _ h => h) s p fun _ => rfl
@[simp] theorem State.endCars_warn (s : State) (p : Caravan → Bool) : (s.endCars p).d.warn = s.d.warn :=
  State.endCars_keeps (fun e => e.warn = s.d.warn) (fun _ _ h => h) s p fun _ => rfl
@[simp] theorem State.endCars_admHold (s : State) (p : Caravan → Bool) : (s.endCars p).d.admHold = s.d.admHold :=
  State.endCars_keeps (fun e => e.admHold = s.d.admHold) (fun _ _ h => h) s p fun _ => rfl
@[simp] theorem State.endCars_inReset (s : State) (p : Caravan → Bool) : (s.endCars p).d.inReset = s.d.inReset :=
  State.endCars_keeps (fun e => e.inReset = s.d.inReset) (fun _ _ h => h) s p fun _ => rfl
@[simp] theorem State.endCars_resps (s : State) (p : Caravan → Bool) : (s.endCars p).d.resps = s.d.resps :=
  State.endCars_keeps (fun e => e.resps = s.d.resps) (fun _ _ h => h) s p fun _ => rfl
@[simp] theorem State.endCars_fns (s : State) (p : Caravan → Bool) : (s.endCars p).d.fns = s.d.fns :=
  State.endCars_keeps (fun e => e.fns = s.d.fns) (fun _ _ h => h) s p fun _ => rfl
@[simp] theorem State.endCars_msix (s : State) (p : Caravan → Bool) : (s.endCars p).d.msix = s.d.msix :=
  State.endCars_keeps (fun e => e.msix = s.d.msix) (fun _ _ h => h) s p fun _ => rfl
@[simp] theorem State.endCars_cur (s : State) (p : Caravan → Bool) : (s.endCars p).cur = s.cur := by
  obtain ⟨m, e⟩ := State.foldl_sampleCut ((List.finRange 320).filter fun c =>
    (s.core c).car.any ((s.d.cars.filter p).map Caravan.id).contains) s
  unfold State.endCars
  dsimp only
  rw [e]
@[simp] theorem State.endCars_agenda (s : State) (p : Caravan → Bool) : (s.endCars p).agenda = s.agenda := by
  obtain ⟨m, e⟩ := State.foldl_sampleCut ((List.finRange 320).filter fun c =>
    (s.core c).car.any ((s.d.cars.filter p).map Caravan.id).contains) s
  unfold State.endCars
  dsimp only
  rw [e]
@[simp] theorem State.endCars_issue (s : State) (p : Caravan → Bool) : (s.endCars p).issue = s.issue := by
  obtain ⟨m, e⟩ := State.foldl_sampleCut ((List.finRange 320).filter fun c =>
    (s.core c).car.any ((s.d.cars.filter p).map Caravan.id).contains) s
  unfold State.endCars
  dsimp only
  rw [e]
@[simp] theorem State.endCars_fresh (s : State) (p : Caravan → Bool) : (s.endCars p).fresh = s.fresh := by
  obtain ⟨m, e⟩ := State.foldl_sampleCut ((List.finRange 320).filter fun c =>
    (s.core c).car.any ((s.d.cars.filter p).map Caravan.id).contains) s
  unfold State.endCars
  dsimp only
  rw [e]

/-- The caravans that are left are those with no number of an ended one. -/
theorem State.endCars_cars (s : State) (p : Caravan → Bool) (y : Caravan) :
    y ∈ (s.endCars p).d.cars ↔ y ∈ s.d.cars ∧ ∀ x ∈ s.d.cars, p x = true → x.id ≠ y.id := by
  have key : ∀ (ids : List Nat) (d : Dev), y ∈ (ids.foldl Dev.dropCar d).cars ↔ y ∈ d.cars ∧ ∀ i ∈ ids, i ≠ y.id := by
    intro ids
    induction ids with
    | nil => simp
    | cons i ids ih =>
      intro d
      rw [List.foldl_cons, ih]
      simp only [Dev.dropCar, List.mem_filter, bne_iff_ne, List.mem_cons, forall_eq_or_imp]
      constructor
      · rintro ⟨⟨a, b⟩, c⟩
        exact ⟨a, fun e => b e.symm, c⟩
      · rintro ⟨a, b, c⟩
        exact ⟨⟨a, fun e => b e.symm⟩, c⟩
  obtain ⟨m, e⟩ := State.foldl_sampleCut ((List.finRange 320).filter fun c =>
    (s.core c).car.any ((s.d.cars.filter p).map Caravan.id).contains) s
  unfold State.endCars
  dsimp only
  rw [e, key]
  simp only [List.mem_map, List.mem_filter, forall_exists_index, and_imp]
  constructor
  · rintro ⟨a, b⟩
    exact ⟨a, fun x hx hp => b x.id x hx hp rfl⟩
  · rintro ⟨a, b⟩
    exact ⟨a, fun i x hx hp e => e ▸ b x hx hp⟩

@[simp] theorem State.fall_mem (s : State) (h : FnId) (why : Nat) (a : Bool) : (s.fall h why a).d.mem = s.d.mem := by
  unfold State.fall; split <;> simp
@[simp] theorem State.fall_tags (s : State) (h : FnId) (why : Nat) (a : Bool) : (s.fall h why a).d.tags = s.d.tags := by
  unfold State.fall; split <;> simp
@[simp] theorem State.fall_memP (s : State) (h : FnId) (why : Nat) (a : Bool) : (s.fall h why a).d.memP = s.d.memP := by
  unfold State.fall; split <;> simp
@[simp] theorem State.fall_ws (s : State) (h : FnId) (why : Nat) (a : Bool) : (s.fall h why a).d.ws = s.d.ws := by
  unfold State.fall; split <;> simp
@[simp] theorem State.fall_wsP (s : State) (h : FnId) (why : Nat) (a : Bool) : (s.fall h why a).d.wsP = s.d.wsP := by
  unfold State.fall; split <;> simp
@[simp] theorem State.fall_refresh (s : State) (h : FnId) (why : Nat) (a : Bool) : (s.fall h why a).d.refresh = s.d.refresh := by
  unfold State.fall; split <;> simp
@[simp] theorem State.fall_tick (s : State) (h : FnId) (why : Nat) (a : Bool) : (s.fall h why a).d.tick = s.d.tick := by
  unfold State.fall; split <;> simp
@[simp] theorem State.fall_ctxs (s : State) (h : FnId) (why : Nat) (a : Bool) : (s.fall h why a).d.ctxs = s.d.ctxs := by
  unfold State.fall; split <;> simp
@[simp] theorem State.fall_clus (s : State) (h : FnId) (why : Nat) (a : Bool) : (s.fall h why a).d.clus = s.d.clus := by
  unfold State.fall; split <;> simp
@[simp] theorem State.fall_grans (s : State) (h : FnId) (why : Nat) (a : Bool) : (s.fall h why a).d.grans = s.d.grans := by
  unfold State.fall; split <;> simp
@[simp] theorem State.fall_slots (s : State) (h : FnId) (why : Nat) (a : Bool) : (s.fall h why a).d.slots = s.d.slots := by
  unfold State.fall; split <;> simp
@[simp] theorem State.fall_seif (s : State) (h : FnId) (why : Nat) (a : Bool) : (s.fall h why a).d.seif = s.d.seif := by
  unfold State.fall; split <;> simp
@[simp] theorem State.fall_wins (s : State) (h : FnId) (why : Nat) (a : Bool) : (s.fall h why a).d.wins = s.d.wins := by
  unfold State.fall; split <;> simp
@[simp] theorem State.fall_locs (s : State) (h : FnId) (why : Nat) (a : Bool) : (s.fall h why a).d.locs = s.d.locs := by
  unfold State.fall; split <;> simp
@[simp] theorem State.fall_scrubG (s : State) (h : FnId) (why : Nat) (a : Bool) : (s.fall h why a).d.scrubG = s.d.scrubG := by
  unfold State.fall; split <;> simp
@[simp] theorem State.fall_scrubbed (s : State) (h : FnId) (why : Nat) (a : Bool) : (s.fall h why a).d.scrubbed = s.d.scrubbed := by
  unfold State.fall; split <;> simp
@[simp] theorem State.fall_moves (s : State) (h : FnId) (why : Nat) (a : Bool) : (s.fall h why a).d.moves = s.d.moves := by
  unfold State.fall; split <;> simp
@[simp] theorem State.fall_moving (s : State) (h : FnId) (why : Nat) (a : Bool) : (s.fall h why a).d.moving = s.d.moving := by
  unfold State.fall; split <;> simp
@[simp] theorem State.fall_moved (s : State) (h : FnId) (why : Nat) (a : Bool) : (s.fall h why a).d.moved = s.d.moved := by
  unfold State.fall; split <;> simp
@[simp] theorem State.fall_lost (s : State) (h : FnId) (why : Nat) (a : Bool) : (s.fall h why a).d.lost = s.d.lost := by
  unfold State.fall; split <;> simp
@[simp] theorem State.fall_hbm (s : State) (h : FnId) (why : Nat) (a : Bool) : (s.fall h why a).d.hbm = s.d.hbm := by
  unfold State.fall; split <;> simp
@[simp] theorem State.fall_streams (s : State) (h : FnId) (why : Nat) (a : Bool) : (s.fall h why a).d.streams = s.d.streams := by
  unfold State.fall; split <;> simp
@[simp] theorem State.fall_ckpts (s : State) (h : FnId) (why : Nat) (a : Bool) : (s.fall h why a).d.ckpts = s.d.ckpts := by
  unfold State.fall; split <;> simp
@[simp] theorem State.fall_tmax (s : State) (h : FnId) (why : Nat) (a : Bool) : (s.fall h why a).d.tmax = s.d.tmax := by
  unfold State.fall; split <;> simp
@[simp] theorem State.fall_warn (s : State) (h : FnId) (why : Nat) (a : Bool) : (s.fall h why a).d.warn = s.d.warn := by
  unfold State.fall; split <;> simp
@[simp] theorem State.fall_admHold (s : State) (h : FnId) (why : Nat) (a : Bool) : (s.fall h why a).d.admHold = s.d.admHold := by
  unfold State.fall; split <;> simp
@[simp] theorem State.fall_inReset (s : State) (h : FnId) (why : Nat) (a : Bool) : (s.fall h why a).d.inReset = s.d.inReset := by
  unfold State.fall; split <;> simp
@[simp] theorem State.fall_resps (s : State) (h : FnId) (why : Nat) (a : Bool) : (s.fall h why a).d.resps = s.d.resps := by
  unfold State.fall; split <;> simp

@[simp] theorem State.fall_cur (s : State) (h : FnId) (why : Nat) (a : Bool) : (s.fall h why a).cur = s.cur := by
  unfold State.fall; split <;> simp
@[simp] theorem State.fall_agenda (s : State) (h : FnId) (why : Nat) (a : Bool) : (s.fall h why a).agenda = s.agenda := by
  unfold State.fall; split <;> simp
@[simp] theorem State.fall_issue (s : State) (h : FnId) (why : Nat) (a : Bool) : (s.fall h why a).issue = s.issue := by
  unfold State.fall; split <;> simp
@[simp] theorem State.fall_fresh (s : State) (h : FnId) (why : Nat) (a : Bool) : (s.fall h why a).fresh = s.fresh := by
  unfold State.fall; split <;> simp

/-- A property that every fall keeps is kept where supervisor text is written. -/
theorem State.textWritten_keeps (P : State → Prop) (h : ∀ (s : State) (f : FnId), P s → P (s.fall f 1 false)) (s : State)
    (ps : List (Nat × Nat)) (hs : P s) : P (s.textWritten ps) := by
  unfold State.textWritten
  generalize List.finRange 8 = fs
  induction fs generalizing s with
  | nil => exact hs
  | cons f fs ih =>
    rw [List.foldl_cons]
    apply ih
    dsimp only
    split
    · exact h s f hs
    · exact hs

@[simp] theorem State.textWritten_mem (s : State) (ps : List (Nat × Nat)) : (s.textWritten ps).d.mem = s.d.mem :=
  State.textWritten_keeps (fun t => t.d.mem = s.d.mem) (fun t f h => by rw [State.fall_mem]; exact h) s ps rfl
@[simp] theorem State.textWritten_tags (s : State) (ps : List (Nat × Nat)) : (s.textWritten ps).d.tags = s.d.tags :=
  State.textWritten_keeps (fun t => t.d.tags = s.d.tags) (fun t f h => by rw [State.fall_tags]; exact h) s ps rfl
@[simp] theorem State.textWritten_memP (s : State) (ps : List (Nat × Nat)) : (s.textWritten ps).d.memP = s.d.memP :=
  State.textWritten_keeps (fun t => t.d.memP = s.d.memP) (fun t f h => by rw [State.fall_memP]; exact h) s ps rfl
@[simp] theorem State.textWritten_ws (s : State) (ps : List (Nat × Nat)) : (s.textWritten ps).d.ws = s.d.ws :=
  State.textWritten_keeps (fun t => t.d.ws = s.d.ws) (fun t f h => by rw [State.fall_ws]; exact h) s ps rfl
@[simp] theorem State.textWritten_wsP (s : State) (ps : List (Nat × Nat)) : (s.textWritten ps).d.wsP = s.d.wsP :=
  State.textWritten_keeps (fun t => t.d.wsP = s.d.wsP) (fun t f h => by rw [State.fall_wsP]; exact h) s ps rfl
@[simp] theorem State.textWritten_refresh (s : State) (ps : List (Nat × Nat)) : (s.textWritten ps).d.refresh = s.d.refresh :=
  State.textWritten_keeps (fun t => t.d.refresh = s.d.refresh) (fun t f h => by rw [State.fall_refresh]; exact h) s ps rfl
@[simp] theorem State.textWritten_tick (s : State) (ps : List (Nat × Nat)) : (s.textWritten ps).d.tick = s.d.tick :=
  State.textWritten_keeps (fun t => t.d.tick = s.d.tick) (fun t f h => by rw [State.fall_tick]; exact h) s ps rfl
@[simp] theorem State.textWritten_ctxs (s : State) (ps : List (Nat × Nat)) : (s.textWritten ps).d.ctxs = s.d.ctxs :=
  State.textWritten_keeps (fun t => t.d.ctxs = s.d.ctxs) (fun t f h => by rw [State.fall_ctxs]; exact h) s ps rfl
@[simp] theorem State.textWritten_clus (s : State) (ps : List (Nat × Nat)) : (s.textWritten ps).d.clus = s.d.clus :=
  State.textWritten_keeps (fun t => t.d.clus = s.d.clus) (fun t f h => by rw [State.fall_clus]; exact h) s ps rfl
@[simp] theorem State.textWritten_grans (s : State) (ps : List (Nat × Nat)) : (s.textWritten ps).d.grans = s.d.grans :=
  State.textWritten_keeps (fun t => t.d.grans = s.d.grans) (fun t f h => by rw [State.fall_grans]; exact h) s ps rfl
@[simp] theorem State.textWritten_slots (s : State) (ps : List (Nat × Nat)) : (s.textWritten ps).d.slots = s.d.slots :=
  State.textWritten_keeps (fun t => t.d.slots = s.d.slots) (fun t f h => by rw [State.fall_slots]; exact h) s ps rfl
@[simp] theorem State.textWritten_seif (s : State) (ps : List (Nat × Nat)) : (s.textWritten ps).d.seif = s.d.seif :=
  State.textWritten_keeps (fun t => t.d.seif = s.d.seif) (fun t f h => by rw [State.fall_seif]; exact h) s ps rfl
@[simp] theorem State.textWritten_wins (s : State) (ps : List (Nat × Nat)) : (s.textWritten ps).d.wins = s.d.wins :=
  State.textWritten_keeps (fun t => t.d.wins = s.d.wins) (fun t f h => by rw [State.fall_wins]; exact h) s ps rfl
@[simp] theorem State.textWritten_locs (s : State) (ps : List (Nat × Nat)) : (s.textWritten ps).d.locs = s.d.locs :=
  State.textWritten_keeps (fun t => t.d.locs = s.d.locs) (fun t f h => by rw [State.fall_locs]; exact h) s ps rfl
@[simp] theorem State.textWritten_scrubG (s : State) (ps : List (Nat × Nat)) : (s.textWritten ps).d.scrubG = s.d.scrubG :=
  State.textWritten_keeps (fun t => t.d.scrubG = s.d.scrubG) (fun t f h => by rw [State.fall_scrubG]; exact h) s ps rfl
@[simp] theorem State.textWritten_scrubbed (s : State) (ps : List (Nat × Nat)) : (s.textWritten ps).d.scrubbed = s.d.scrubbed :=
  State.textWritten_keeps (fun t => t.d.scrubbed = s.d.scrubbed) (fun t f h => by rw [State.fall_scrubbed]; exact h) s ps rfl
@[simp] theorem State.textWritten_moves (s : State) (ps : List (Nat × Nat)) : (s.textWritten ps).d.moves = s.d.moves :=
  State.textWritten_keeps (fun t => t.d.moves = s.d.moves) (fun t f h => by rw [State.fall_moves]; exact h) s ps rfl
@[simp] theorem State.textWritten_moving (s : State) (ps : List (Nat × Nat)) : (s.textWritten ps).d.moving = s.d.moving :=
  State.textWritten_keeps (fun t => t.d.moving = s.d.moving) (fun t f h => by rw [State.fall_moving]; exact h) s ps rfl
@[simp] theorem State.textWritten_moved (s : State) (ps : List (Nat × Nat)) : (s.textWritten ps).d.moved = s.d.moved :=
  State.textWritten_keeps (fun t => t.d.moved = s.d.moved) (fun t f h => by rw [State.fall_moved]; exact h) s ps rfl
@[simp] theorem State.textWritten_lost (s : State) (ps : List (Nat × Nat)) : (s.textWritten ps).d.lost = s.d.lost :=
  State.textWritten_keeps (fun t => t.d.lost = s.d.lost) (fun t f h => by rw [State.fall_lost]; exact h) s ps rfl
@[simp] theorem State.textWritten_hbm (s : State) (ps : List (Nat × Nat)) : (s.textWritten ps).d.hbm = s.d.hbm :=
  State.textWritten_keeps (fun t => t.d.hbm = s.d.hbm) (fun t f h => by rw [State.fall_hbm]; exact h) s ps rfl
@[simp] theorem State.textWritten_streams (s : State) (ps : List (Nat × Nat)) : (s.textWritten ps).d.streams = s.d.streams :=
  State.textWritten_keeps (fun t => t.d.streams = s.d.streams) (fun t f h => by rw [State.fall_streams]; exact h) s ps rfl
@[simp] theorem State.textWritten_ckpts (s : State) (ps : List (Nat × Nat)) : (s.textWritten ps).d.ckpts = s.d.ckpts :=
  State.textWritten_keeps (fun t => t.d.ckpts = s.d.ckpts) (fun t f h => by rw [State.fall_ckpts]; exact h) s ps rfl
@[simp] theorem State.textWritten_tmax (s : State) (ps : List (Nat × Nat)) : (s.textWritten ps).d.tmax = s.d.tmax :=
  State.textWritten_keeps (fun t => t.d.tmax = s.d.tmax) (fun t f h => by rw [State.fall_tmax]; exact h) s ps rfl
@[simp] theorem State.textWritten_warn (s : State) (ps : List (Nat × Nat)) : (s.textWritten ps).d.warn = s.d.warn :=
  State.textWritten_keeps (fun t => t.d.warn = s.d.warn) (fun t f h => by rw [State.fall_warn]; exact h) s ps rfl
@[simp] theorem State.textWritten_admHold (s : State) (ps : List (Nat × Nat)) : (s.textWritten ps).d.admHold = s.d.admHold :=
  State.textWritten_keeps (fun t => t.d.admHold = s.d.admHold) (fun t f h => by rw [State.fall_admHold]; exact h) s ps rfl
@[simp] theorem State.textWritten_inReset (s : State) (ps : List (Nat × Nat)) : (s.textWritten ps).d.inReset = s.d.inReset :=
  State.textWritten_keeps (fun t => t.d.inReset = s.d.inReset) (fun t f h => by rw [State.fall_inReset]; exact h) s ps rfl
@[simp] theorem State.textWritten_resps (s : State) (ps : List (Nat × Nat)) : (s.textWritten ps).d.resps = s.d.resps :=
  State.textWritten_keeps (fun t => t.d.resps = s.d.resps) (fun t f h => by rw [State.fall_resps]; exact h) s ps rfl

end Sys2Proof.Machine
end

