-- ==== Sys2Proof/Laws/PerInstr.lean ====
section
/-! SUPPORT. Statements made per instruction. SlotSteps: the slot operation of a step gives the step back, so that a statement about
slot operations is one about steps. -/

namespace Sys2Proof.Laws
open Sys2Proof

/-- The slot operation of a step, where it has one, is the step's own, and the step is well-formed as its operation is. -/
def SlotSteps.Statement (i : Instr) : Prop := ∀ x, i.toSlot = some x → x.toInstr = i ∧ i.wf = x.wf

/-- A step that is a slot operation. -/
theorem SlotSteps.of_slot {i : Instr} (y : SlotOp) (h : i.toSlot = some y) (h' : y.toInstr = i) : SlotSteps.Statement i := by
  intro x hx
  obtain rfl : y = x := by simpa [h] using hx
  exact ⟨h', by simp [Instr.wf, h]⟩

/-- A step that is none. -/
theorem SlotSteps.of_none {i : Instr} (h : i.toSlot = none) : SlotSteps.Statement i := by
  intro x hx
  simp [h] at hx

theorem SlotSteps.bundleIssue (c : CoreId) : SlotSteps.Statement (.bundleIssue c) := SlotSteps.of_none rfl
theorem SlotSteps.heldBundleIssue (c : CoreId) : SlotSteps.Statement (.heldBundleIssue c) := SlotSteps.of_none rfl
theorem SlotSteps.resultWriteback (c : CoreId) : SlotSteps.Statement (.resultWriteback c) := SlotSteps.of_none rfl
theorem SlotSteps.loadDataReturn (c : CoreId) (seq : Nat) : SlotSteps.Statement (.loadDataReturn c seq) := SlotSteps.of_none rfl
theorem SlotSteps.landingDue (c : CoreId) : SlotSteps.Statement (.landingDue c) := SlotSteps.of_none rfl
theorem SlotSteps.bankLanded (c : CoreId) (b : Fin 16) : SlotSteps.Statement (.bankLanded c b) := SlotSteps.of_none rfl
theorem SlotSteps.add (o : AluOp) : SlotSteps.Statement (.add o) := SlotSteps.of_slot (.alu .add o) rfl rfl
theorem SlotSteps.sub (o : AluOp) : SlotSteps.Statement (.sub o) := SlotSteps.of_slot (.alu .sub o) rfl rfl
theorem SlotSteps.mul (o : AluOp) : SlotSteps.Statement (.mul o) := SlotSteps.of_slot (.alu .mul o) rfl rfl
theorem SlotSteps.mulh (o : AluOp) : SlotSteps.Statement (.mulh o) := SlotSteps.of_slot (.alu .mulh o) rfl rfl
theorem SlotSteps.min (o : AluOp) : SlotSteps.Statement (.min o) := SlotSteps.of_slot (.alu .min o) rfl rfl
theorem SlotSteps.max (o : AluOp) : SlotSteps.Statement (.max o) := SlotSteps.of_slot (.alu .max o) rfl rfl
theorem SlotSteps.mov (o : AluOp) : SlotSteps.Statement (.mov o) := SlotSteps.of_slot (.alu .mov o) rfl rfl
theorem SlotSteps.and (o : AluOp) : SlotSteps.Statement (.and o) := SlotSteps.of_slot (.alu .and o) rfl rfl
theorem SlotSteps.or (o : AluOp) : SlotSteps.Statement (.or o) := SlotSteps.of_slot (.alu .or o) rfl rfl
theorem SlotSteps.xor (o : AluOp) : SlotSteps.Statement (.xor o) := SlotSteps.of_slot (.alu .xor o) rfl rfl
theorem SlotSteps.andn (o : AluOp) : SlotSteps.Statement (.andn o) := SlotSteps.of_slot (.alu .andn o) rfl rfl
theorem SlotSteps.shl (o : AluOp) : SlotSteps.Statement (.shl o) := SlotSteps.of_slot (.alu .shl o) rfl rfl
theorem SlotSteps.shr (o : AluOp) : SlotSteps.Statement (.shr o) := SlotSteps.of_slot (.alu .shr o) rfl rfl
theorem SlotSteps.rotl (o : AluOp) : SlotSteps.Statement (.rotl o) := SlotSteps.of_slot (.alu .rotl o) rfl rfl
theorem SlotSteps.sel (o : AluOp) : SlotSteps.Statement (.sel o) := SlotSteps.of_slot (.alu .sel o) rfl rfl
theorem SlotSteps.fma (o : AluOp) : SlotSteps.Statement (.fma o) := SlotSteps.of_slot (.alu .fma o) rfl rfl
theorem SlotSteps.fms (o : AluOp) : SlotSteps.Statement (.fms o) := SlotSteps.of_slot (.alu .fms o) rfl rfl
theorem SlotSteps.div (o : AluOp) : SlotSteps.Statement (.div o) := SlotSteps.of_slot (.alu .div o) rfl rfl
theorem SlotSteps.rem (o : AluOp) : SlotSteps.Statement (.rem o) := SlotSteps.of_slot (.alu .rem o) rfl rfl
theorem SlotSteps.clz (o : AluOp) : SlotSteps.Statement (.clz o) := SlotSteps.of_slot (.alu .clz o) rfl rfl
theorem SlotSteps.popc (o : AluOp) : SlotSteps.Statement (.popc o) := SlotSteps.of_slot (.alu .popc o) rfl rfl
theorem SlotSteps.cvt (o : AluOp) : SlotSteps.Statement (.cvt o) := SlotSteps.of_slot (.alu .cvt o) rfl rfl
theorem SlotSteps.cmpEq (o : AluOp) : SlotSteps.Statement (.cmpEq o) := SlotSteps.of_slot (.alu .cmpEq o) rfl rfl
theorem SlotSteps.cmpNe (o : AluOp) : SlotSteps.Statement (.cmpNe o) := SlotSteps.of_slot (.alu .cmpNe o) rfl rfl
theorem SlotSteps.cmpLt (o : AluOp) : SlotSteps.Statement (.cmpLt o) := SlotSteps.of_slot (.alu .cmpLt o) rfl rfl
theorem SlotSteps.cmpLe (o : AluOp) : SlotSteps.Statement (.cmpLe o) := SlotSteps.of_slot (.alu .cmpLe o) rfl rfl
theorem SlotSteps.cmpPhb (o : AluOp) : SlotSteps.Statement (.cmpPhb o) := SlotSteps.of_slot (.alu .cmpPhb o) rfl rfl
theorem SlotSteps.cmpPho (o : AluOp) : SlotSteps.Statement (.cmpPho o) := SlotSteps.of_slot (.alu .cmpPho o) rfl rfl
theorem SlotSteps.gand (o : AluOp) : SlotSteps.Statement (.gand o) := SlotSteps.of_slot (.alu .gand o) rfl rfl
theorem SlotSteps.gor (o : AluOp) : SlotSteps.Statement (.gor o) := SlotSteps.of_slot (.alu .gor o) rfl rfl
theorem SlotSteps.gxor (o : AluOp) : SlotSteps.Statement (.gxor o) := SlotSteps.of_slot (.alu .gxor o) rfl rfl
theorem SlotSteps.gandn (o : AluOp) : SlotSteps.Statement (.gandn o) := SlotSteps.of_slot (.alu .gandn o) rfl rfl
theorem SlotSteps.gtos (o : AluOp) : SlotSteps.Statement (.gtos o) := SlotSteps.of_slot (.alu .gtos o) rfl rfl
theorem SlotSteps.stog (o : AluOp) : SlotSteps.Statement (.stog o) := SlotSteps.of_slot (.alu .stog o) rfl rfl
theorem SlotSteps.phmul (o : AluOp) : SlotSteps.Statement (.phmul o) := SlotSteps.of_slot (.alu .phmul o) rfl rfl
theorem SlotSteps.phsub (o : AluOp) : SlotSteps.Statement (.phsub o) := SlotSteps.of_slot (.alu .phsub o) rfl rfl
theorem SlotSteps.br (o : BrOp) : SlotSteps.Statement (.br o) := SlotSteps.of_slot (.br .br o) rfl rfl
theorem SlotSteps.jr (o : AluOp) : SlotSteps.Statement (.jr o) := SlotSteps.of_slot (.alu .jr o) rfl rfl
theorem SlotSteps.call (o : BrOp) : SlotSteps.Statement (.call o) := SlotSteps.of_slot (.br .call o) rfl rfl
theorem SlotSteps.callr (o : AluOp) : SlotSteps.Statement (.callr o) := SlotSteps.of_slot (.alu .callr o) rfl rfl
theorem SlotSteps.ret (o : AluOp) : SlotSteps.Statement (.ret o) := SlotSteps.of_slot (.alu .ret o) rfl rfl
theorem SlotSteps.retFrameLanding (c : CoreId) : SlotSteps.Statement (.retFrameLanding c) := SlotSteps.of_none rfl
theorem SlotSteps.loopBr (o : BrOp) : SlotSteps.Statement (.loopBr o) := SlotSteps.of_slot (.br .loopBr o) rfl rfl
theorem SlotSteps.mfsw (o : AluOp) : SlotSteps.Statement (.mfsw o) := SlotSteps.of_slot (.alu .mfsw o) rfl rfl
theorem SlotSteps.mtsw (o : AluOp) : SlotSteps.Statement (.mtsw o) := SlotSteps.of_slot (.alu .mtsw o) rfl rfl
theorem SlotSteps.movMp (o : AluOp) : SlotSteps.Statement (.movMp o) := SlotSteps.of_slot (.alu .movMp o) rfl rfl
theorem SlotSteps.mfmp (o : AluOp) : SlotSteps.Statement (.mfmp o) := SlotSteps.of_slot (.alu .mfmp o) rfl rfl
theorem SlotSteps.break (o : AluOp) : SlotSteps.Statement (.break o) := SlotSteps.of_slot (.alu .break o) rfl rfl
theorem SlotSteps.syscall (o : AluOp) : SlotSteps.Statement (.syscall o) := SlotSteps.of_slot (.alu .syscall o) rfl rfl
theorem SlotSteps.uiret (o : AluOp) : SlotSteps.Statement (.uiret o) := SlotSteps.of_slot (.alu .uiret o) rfl rfl
theorem SlotSteps.resume (o : AluOp) : SlotSteps.Statement (.resume o) := SlotSteps.of_slot (.alu .resume o) rfl rfl
theorem SlotSteps.cwtWr (o : AluOp) : SlotSteps.Statement (.cwtWr o) := SlotSteps.of_slot (.alu .cwtWr o) rfl rfl
theorem SlotSteps.cwtRd (o : AluOp) : SlotSteps.Statement (.cwtRd o) := SlotSteps.of_slot (.alu .cwtRd o) rfl rfl
theorem SlotSteps.mpsWr (o : AluOp) : SlotSteps.Statement (.mpsWr o) := SlotSteps.of_slot (.alu .mpsWr o) rfl rfl
theorem SlotSteps.ctxSave (o : AluOp) : SlotSteps.Statement (.ctxSave o) := SlotSteps.of_slot (.alu .ctxSave o) rfl rfl
theorem SlotSteps.ctxLoad (o : AluOp) : SlotSteps.Statement (.ctxLoad o) := SlotSteps.of_slot (.alu .ctxLoad o) rfl rfl
theorem SlotSteps.bankSave (o : AluOp) : SlotSteps.Statement (.bankSave o) := SlotSteps.of_slot (.alu .bankSave o) rfl rfl
theorem SlotSteps.bankLoad (o : AluOp) : SlotSteps.Statement (.bankLoad o) := SlotSteps.of_slot (.alu .bankLoad o) rfl rfl
theorem SlotSteps.fmaskRd (o : AluOp) : SlotSteps.Statement (.fmaskRd o) := SlotSteps.of_slot (.alu .fmaskRd o) rfl rfl
theorem SlotSteps.fmaskWr (o : AluOp) : SlotSteps.Statement (.fmaskWr o) := SlotSteps.of_slot (.alu .fmaskWr o) rfl rfl
theorem SlotSteps.vadd (o : AluOp) : SlotSteps.Statement (.vadd o) := SlotSteps.of_slot (.alu .vadd o) rfl rfl
theorem SlotSteps.vsub (o : AluOp) : SlotSteps.Statement (.vsub o) := SlotSteps.of_slot (.alu .vsub o) rfl rfl
theorem SlotSteps.vmul (o : AluOp) : SlotSteps.Statement (.vmul o) := SlotSteps.of_slot (.alu .vmul o) rfl rfl
theorem SlotSteps.vmulh (o : AluOp) : SlotSteps.Statement (.vmulh o) := SlotSteps.of_slot (.alu .vmulh o) rfl rfl
theorem SlotSteps.vmin (o : AluOp) : SlotSteps.Statement (.vmin o) := SlotSteps.of_slot (.alu .vmin o) rfl rfl
theorem SlotSteps.vmax (o : AluOp) : SlotSteps.Statement (.vmax o) := SlotSteps.of_slot (.alu .vmax o) rfl rfl
theorem SlotSteps.vmov (o : AluOp) : SlotSteps.Statement (.vmov o) := SlotSteps.of_slot (.alu .vmov o) rfl rfl
theorem SlotSteps.vand (o : AluOp) : SlotSteps.Statement (.vand o) := SlotSteps.of_slot (.alu .vand o) rfl rfl
theorem SlotSteps.vor (o : AluOp) : SlotSteps.Statement (.vor o) := SlotSteps.of_slot (.alu .vor o) rfl rfl
theorem SlotSteps.vxor (o : AluOp) : SlotSteps.Statement (.vxor o) := SlotSteps.of_slot (.alu .vxor o) rfl rfl
theorem SlotSteps.vandn (o : AluOp) : SlotSteps.Statement (.vandn o) := SlotSteps.of_slot (.alu .vandn o) rfl rfl
theorem SlotSteps.vshl (o : AluOp) : SlotSteps.Statement (.vshl o) := SlotSteps.of_slot (.alu .vshl o) rfl rfl
theorem SlotSteps.vshr (o : AluOp) : SlotSteps.Statement (.vshr o) := SlotSteps.of_slot (.alu .vshr o) rfl rfl
theorem SlotSteps.vsel (o : AluOp) : SlotSteps.Statement (.vsel o) := SlotSteps.of_slot (.alu .vsel o) rfl rfl
theorem SlotSteps.vfma (o : AluOp) : SlotSteps.Statement (.vfma o) := SlotSteps.of_slot (.alu .vfma o) rfl rfl
theorem SlotSteps.vfms (o : AluOp) : SlotSteps.Statement (.vfms o) := SlotSteps.of_slot (.alu .vfms o) rfl rfl
theorem SlotSteps.vclz (o : AluOp) : SlotSteps.Statement (.vclz o) := SlotSteps.of_slot (.alu .vclz o) rfl rfl
theorem SlotSteps.vpopc (o : AluOp) : SlotSteps.Statement (.vpopc o) := SlotSteps.of_slot (.alu .vpopc o) rfl rfl
theorem SlotSteps.vcvt (o : AluOp) : SlotSteps.Statement (.vcvt o) := SlotSteps.of_slot (.alu .vcvt o) rfl rfl
theorem SlotSteps.vcmpEq (o : AluOp) : SlotSteps.Statement (.vcmpEq o) := SlotSteps.of_slot (.alu .vcmpEq o) rfl rfl
theorem SlotSteps.vcmpNe (o : AluOp) : SlotSteps.Statement (.vcmpNe o) := SlotSteps.of_slot (.alu .vcmpNe o) rfl rfl
theorem SlotSteps.vcmpLt (o : AluOp) : SlotSteps.Statement (.vcmpLt o) := SlotSteps.of_slot (.alu .vcmpLt o) rfl rfl
theorem SlotSteps.vcmpLe (o : AluOp) : SlotSteps.Statement (.vcmpLe o) := SlotSteps.of_slot (.alu .vcmpLe o) rfl rfl
theorem SlotSteps.vcmpUn (o : AluOp) : SlotSteps.Statement (.vcmpUn o) := SlotSteps.of_slot (.alu .vcmpUn o) rfl rfl
theorem SlotSteps.vcmpPhb (o : AluOp) : SlotSteps.Statement (.vcmpPhb o) := SlotSteps.of_slot (.alu .vcmpPhb o) rfl rfl
theorem SlotSteps.vcmpPho (o : AluOp) : SlotSteps.Statement (.vcmpPho o) := SlotSteps.of_slot (.alu .vcmpPho o) rfl rfl
theorem SlotSteps.vperm (o : AluOp) : SlotSteps.Statement (.vperm o) := SlotSteps.of_slot (.alu .vperm o) rfl rfl
theorem SlotSteps.vbcast (o : AluOp) : SlotSteps.Statement (.vbcast o) := SlotSteps.of_slot (.alu .vbcast o) rfl rfl
theorem SlotSteps.vext (o : AluOp) : SlotSteps.Statement (.vext o) := SlotSteps.of_slot (.alu .vext o) rfl rfl
theorem SlotSteps.vrow (o : AluOp) : SlotSteps.Statement (.vrow o) := SlotSteps.of_slot (.alu .vrow o) rfl rfl
theorem SlotSteps.vwrow (o : AluOp) : SlotSteps.Statement (.vwrow o) := SlotSteps.of_slot (.alu .vwrow o) rfl rfl
theorem SlotSteps.vscacc (o : AluOp) : SlotSteps.Statement (.vscacc o) := SlotSteps.of_slot (.alu .vscacc o) rfl rfl
theorem SlotSteps.vredsum (o : AluOp) : SlotSteps.Statement (.vredsum o) := SlotSteps.of_slot (.alu .vredsum o) rfl rfl
theorem SlotSteps.vredmax (o : AluOp) : SlotSteps.Statement (.vredmax o) := SlotSteps.of_slot (.alu .vredmax o) rfl rfl
theorem SlotSteps.vredmin (o : AluOp) : SlotSteps.Statement (.vredmin o) := SlotSteps.of_slot (.alu .vredmin o) rfl rfl
theorem SlotSteps.vrcp (o : AluOp) : SlotSteps.Statement (.vrcp o) := SlotSteps.of_slot (.alu .vrcp o) rfl rfl
theorem SlotSteps.vrsqrt (o : AluOp) : SlotSteps.Statement (.vrsqrt o) := SlotSteps.of_slot (.alu .vrsqrt o) rfl rfl
theorem SlotSteps.vsqrt (o : AluOp) : SlotSteps.Statement (.vsqrt o) := SlotSteps.of_slot (.alu .vsqrt o) rfl rfl
theorem SlotSteps.vexp2 (o : AluOp) : SlotSteps.Statement (.vexp2 o) := SlotSteps.of_slot (.alu .vexp2 o) rfl rfl
theorem SlotSteps.vlog2 (o : AluOp) : SlotSteps.Statement (.vlog2 o) := SlotSteps.of_slot (.alu .vlog2 o) rfl rfl
theorem SlotSteps.vsin (o : AluOp) : SlotSteps.Statement (.vsin o) := SlotSteps.of_slot (.alu .vsin o) rfl rfl
theorem SlotSteps.vcos (o : AluOp) : SlotSteps.Statement (.vcos o) := SlotSteps.of_slot (.alu .vcos o) rfl rfl
theorem SlotSteps.vphmul (o : AluOp) : SlotSteps.Statement (.vphmul o) := SlotSteps.of_slot (.alu .vphmul o) rfl rfl
theorem SlotSteps.vphsub (o : AluOp) : SlotSteps.Statement (.vphsub o) := SlotSteps.of_slot (.alu .vphsub o) rfl rfl
theorem SlotSteps.vphacc (o : AluOp) : SlotSteps.Statement (.vphacc o) := SlotSteps.of_slot (.alu .vphacc o) rfl rfl
theorem SlotSteps.vphres (o : AluOp) : SlotSteps.Statement (.vphres o) := SlotSteps.of_slot (.alu .vphres o) rfl rfl
theorem SlotSteps.mxCall (o : MxOp) : SlotSteps.Statement (.mxCall o) := SlotSteps.of_slot (.mx o) rfl rfl
theorem SlotSteps.muLat (c : CoreId) (u : MuLat) : SlotSteps.Statement (.muLat c u) := SlotSteps.of_none rfl
theorem SlotSteps.muMmaE4m3 (c : CoreId) (u : MuMma) : SlotSteps.Statement (.muMmaE4m3 c u) := SlotSteps.of_none rfl
theorem SlotSteps.muMmaBf16 (c : CoreId) (u : MuMma) : SlotSteps.Statement (.muMmaBf16 c u) := SlotSteps.of_none rfl
theorem SlotSteps.muMmaBf16q (c : CoreId) (u : MuMma) : SlotSteps.Statement (.muMmaBf16q c u) := SlotSteps.of_none rfl
theorem SlotSteps.muMmaI8 (c : CoreId) (u : MuMma) : SlotSteps.Statement (.muMmaI8 c u) := SlotSteps.of_none rfl
theorem SlotSteps.muMmaPh (c : CoreId) (u : MuMma) : SlotSteps.Statement (.muMmaPh c u) := SlotSteps.of_none rfl
theorem SlotSteps.muDrain (c : CoreId) (u : MuDrain) : SlotSteps.Statement (.muDrain c u) := SlotSteps.of_none rfl
theorem SlotSteps.muAdv (c : CoreId) (u : MuAdv) : SlotSteps.Statement (.muAdv c u) := SlotSteps.of_none rfl
theorem SlotSteps.muLoop (c : CoreId) (u : MuLoop) : SlotSteps.Statement (.muLoop c u) := SlotSteps.of_none rfl
theorem SlotSteps.muEnd (c : CoreId) : SlotSteps.Statement (.muEnd c) := SlotSteps.of_none rfl
theorem SlotSteps.blockComplete (c : CoreId) : SlotSteps.Statement (.blockComplete c) := SlotSteps.of_none rfl
theorem SlotSteps.matrixCallComplete (c : CoreId) : SlotSteps.Statement (.matrixCallComplete c) := SlotSteps.of_none rfl
theorem SlotSteps.matrixFault (c : CoreId) : SlotSteps.Statement (.matrixFault c) := SlotSteps.of_none rfl
theorem SlotSteps.operandRowArrival (c : CoreId) : SlotSteps.Statement (.operandRowArrival c) := SlotSteps.of_none rfl
theorem SlotSteps.ld (o : MemOp) : SlotSteps.Statement (.ld o) := SlotSteps.of_slot (.mem .ld o) rfl rfl
theorem SlotSteps.ldAcq (o : MemOp) : SlotSteps.Statement (.ldAcq o) := SlotSteps.of_slot (.mem .ldAcq o) rfl rfl
theorem SlotSteps.ldTake (o : MemOp) : SlotSteps.Statement (.ldTake o) := SlotSteps.of_slot (.mem .ldTake o) rfl rfl
theorem SlotSteps.ldPf (o : MemOp) : SlotSteps.Statement (.ldPf o) := SlotSteps.of_slot (.mem .ldPf o) rfl rfl
theorem SlotSteps.loadPerform (c : CoreId) : SlotSteps.Statement (.loadPerform c) := SlotSteps.of_none rfl
theorem SlotSteps.st (o : MemOp) : SlotSteps.Statement (.st o) := SlotSteps.of_slot (.mem .st o) rfl rfl
theorem SlotSteps.stRel (o : MemOp) : SlotSteps.Statement (.stRel o) := SlotSteps.of_slot (.mem .stRel o) rfl rfl
theorem SlotSteps.stFill (o : MemOp) : SlotSteps.Statement (.stFill o) := SlotSteps.of_slot (.mem .stFill o) rfl rfl
theorem SlotSteps.storePerform (c : CoreId) : SlotSteps.Statement (.storePerform c) := SlotSteps.of_none rfl
theorem SlotSteps.atFadd (o : MemOp) : SlotSteps.Statement (.atFadd o) := SlotSteps.of_slot (.mem .atFadd o) rfl rfl
theorem SlotSteps.redFadd (o : MemOp) : SlotSteps.Statement (.redFadd o) := SlotSteps.of_slot (.mem .redFadd o) rfl rfl
theorem SlotSteps.atMinN (o : MemOp) : SlotSteps.Statement (.atMinN o) := SlotSteps.of_slot (.mem .atMinN o) rfl rfl
theorem SlotSteps.atMaxN (o : MemOp) : SlotSteps.Statement (.atMaxN o) := SlotSteps.of_slot (.mem .atMaxN o) rfl rfl
theorem SlotSteps.redMinN (o : MemOp) : SlotSteps.Statement (.redMinN o) := SlotSteps.of_slot (.mem .redMinN o) rfl rfl
theorem SlotSteps.redMaxN (o : MemOp) : SlotSteps.Statement (.redMaxN o) := SlotSteps.of_slot (.mem .redMaxN o) rfl rfl
theorem SlotSteps.atAdd (o : MemOp) : SlotSteps.Statement (.atAdd o) := SlotSteps.of_slot (.mem .atAdd o) rfl rfl
theorem SlotSteps.redAdd (o : MemOp) : SlotSteps.Statement (.redAdd o) := SlotSteps.of_slot (.mem .redAdd o) rfl rfl
theorem SlotSteps.atMinI (o : MemOp) : SlotSteps.Statement (.atMinI o) := SlotSteps.of_slot (.mem .atMinI o) rfl rfl
theorem SlotSteps.atMaxI (o : MemOp) : SlotSteps.Statement (.atMaxI o) := SlotSteps.of_slot (.mem .atMaxI o) rfl rfl
theorem SlotSteps.redMinI (o : MemOp) : SlotSteps.Statement (.redMinI o) := SlotSteps.of_slot (.mem .redMinI o) rfl rfl
theorem SlotSteps.redMaxI (o : MemOp) : SlotSteps.Statement (.redMaxI o) := SlotSteps.of_slot (.mem .redMaxI o) rfl rfl
theorem SlotSteps.atAnd (o : MemOp) : SlotSteps.Statement (.atAnd o) := SlotSteps.of_slot (.mem .atAnd o) rfl rfl
theorem SlotSteps.atOr (o : MemOp) : SlotSteps.Statement (.atOr o) := SlotSteps.of_slot (.mem .atOr o) rfl rfl
theorem SlotSteps.atXor (o : MemOp) : SlotSteps.Statement (.atXor o) := SlotSteps.of_slot (.mem .atXor o) rfl rfl
theorem SlotSteps.redAnd (o : MemOp) : SlotSteps.Statement (.redAnd o) := SlotSteps.of_slot (.mem .redAnd o) rfl rfl
theorem SlotSteps.redOr (o : MemOp) : SlotSteps.Statement (.redOr o) := SlotSteps.of_slot (.mem .redOr o) rfl rfl
theorem SlotSteps.redXor (o : MemOp) : SlotSteps.Statement (.redXor o) := SlotSteps.of_slot (.mem .redXor o) rfl rfl
theorem SlotSteps.atSwap (o : MemOp) : SlotSteps.Statement (.atSwap o) := SlotSteps.of_slot (.mem .atSwap o) rfl rfl
theorem SlotSteps.atCas (o : MemOp) : SlotSteps.Statement (.atCas o) := SlotSteps.of_slot (.mem .atCas o) rfl rfl
theorem SlotSteps.atomicPerform (c : CoreId) : SlotSteps.Statement (.atomicPerform c) := SlotSteps.of_none rfl
theorem SlotSteps.windowContribution (c : CoreId) : SlotSteps.Statement (.windowContribution c) := SlotSteps.of_none rfl
theorem SlotSteps.windowRoundMerge (loc : Nat) : SlotSteps.Statement (.windowRoundMerge loc) := SlotSteps.of_none rfl
theorem SlotSteps.cpCopy (o : CpOp) : SlotSteps.Statement (.cpCopy o) := SlotSteps.of_slot (.cp .cpCopy o) rfl rfl
theorem SlotSteps.cpFill (o : CpOp) : SlotSteps.Statement (.cpFill o) := SlotSteps.of_slot (.cp .cpFill o) rfl rfl
theorem SlotSteps.cpClose (o : CpOp) : SlotSteps.Statement (.cpClose o) := SlotSteps.of_slot (.cp .cpClose o) rfl rfl
theorem SlotSteps.copyBegin (c : CoreId) : SlotSteps.Statement (.copyBegin c) := SlotSteps.of_none rfl
theorem SlotSteps.copyPieceWrite (c : CoreId) : SlotSteps.Statement (.copyPieceWrite c) := SlotSteps.of_none rfl
theorem SlotSteps.bxTr (o : CpOp) : SlotSteps.Statement (.bxTr o) := SlotSteps.of_slot (.cp .bxTr o) rfl rfl
theorem SlotSteps.bxIlv (o : CpOp) : SlotSteps.Statement (.bxIlv o) := SlotSteps.of_slot (.cp .bxIlv o) rfl rfl
theorem SlotSteps.bxGth (o : CpOp) : SlotSteps.Statement (.bxGth o) := SlotSteps.of_slot (.cp .bxGth o) rfl rfl
theorem SlotSteps.bxSct (o : CpOp) : SlotSteps.Statement (.bxSct o) := SlotSteps.of_slot (.cp .bxSct o) rfl rfl
theorem SlotSteps.bxBc (o : CpOp) : SlotSteps.Statement (.bxBc o) := SlotSteps.of_slot (.cp .bxBc o) rfl rfl
theorem SlotSteps.shuffleBegin (c : CoreId) (n : Nat) : SlotSteps.Statement (.shuffleBegin c n) := SlotSteps.of_none rfl
theorem SlotSteps.shuffleComplete (c : CoreId) : SlotSteps.Statement (.shuffleComplete c) := SlotSteps.of_none rfl
theorem SlotSteps.barInitImm (o : SyOp) : SlotSteps.Statement (.barInitImm o) := SlotSteps.of_slot (.sy .barInitImm o) rfl rfl
theorem SlotSteps.barInitReg (o : SyOp) : SlotSteps.Statement (.barInitReg o) := SlotSteps.of_slot (.sy .barInitReg o) rfl rfl
theorem SlotSteps.barExpectImm (o : SyOp) : SlotSteps.Statement (.barExpectImm o) := SlotSteps.of_slot (.sy .barExpectImm o) rfl rfl
theorem SlotSteps.barExpectReg (o : SyOp) : SlotSteps.Statement (.barExpectReg o) := SlotSteps.of_slot (.sy .barExpectReg o) rfl rfl
theorem SlotSteps.barArrive (o : SyOp) : SlotSteps.Statement (.barArrive o) := SlotSteps.of_slot (.sy .barArrive o) rfl rfl
theorem SlotSteps.barWait (o : SyOp) : SlotSteps.Statement (.barWait o) := SlotSteps.of_slot (.sy .barWait o) rfl rfl
theorem SlotSteps.barTest (o : SyOp) : SlotSteps.Statement (.barTest o) := SlotSteps.of_slot (.sy .barTest o) rfl rfl
theorem SlotSteps.barrierArrival (car : Nat) (b : Fin 16) : SlotSteps.Statement (.barrierArrival car b) := SlotSteps.of_none rfl
theorem SlotSteps.barWaitRelease (c : CoreId) : SlotSteps.Statement (.barWaitRelease c) := SlotSteps.of_none rfl
theorem SlotSteps.syFence (o : SyOp) : SlotSteps.Statement (.syFence o) := SlotSteps.of_slot (.sy .syFence o) rfl rfl
theorem SlotSteps.syQjoin (o : SyOp) : SlotSteps.Statement (.syQjoin o) := SlotSteps.of_slot (.sy .syQjoin o) rfl rfl
theorem SlotSteps.syWaitb (o : SyOp) : SlotSteps.Statement (.syWaitb o) := SlotSteps.of_slot (.sy .syWaitb o) rfl rfl
theorem SlotSteps.syHoldEnd (c : CoreId) : SlotSteps.Statement (.syHoldEnd c) := SlotSteps.of_none rfl
theorem SlotSteps.syFrame (o : SyOp) : SlotSteps.Statement (.syFrame o) := SlotSteps.of_slot (.sy .syFrame o) rfl rfl
theorem SlotSteps.syPhase (o : SyOp) : SlotSteps.Statement (.syPhase o) := SlotSteps.of_slot (.sy .syPhase o) rfl rfl
theorem SlotSteps.sySuspend (o : SyOp) : SlotSteps.Statement (.sySuspend o) := SlotSteps.of_slot (.sy .sySuspend o) rfl rfl
theorem SlotSteps.sySuspendEv (o : SyOp) : SlotSteps.Statement (.sySuspendEv o) := SlotSteps.of_slot (.sy .sySuspendEv o) rfl rfl
theorem SlotSteps.sySuspendFe (o : SyOp) : SlotSteps.Statement (.sySuspendFe o) := SlotSteps.of_slot (.sy .sySuspendFe o) rfl rfl
theorem SlotSteps.syYield (o : SyOp) : SlotSteps.Statement (.syYield o) := SlotSteps.of_slot (.sy .syYield o) rfl rfl
theorem SlotSteps.syYieldPark (o : SyOp) : SlotSteps.Statement (.syYieldPark o) := SlotSteps.of_slot (.sy .syYieldPark o) rfl rfl
theorem SlotSteps.sySpawn (o : SyOp) : SlotSteps.Statement (.sySpawn o) := SlotSteps.of_slot (.sy .sySpawn o) rfl rfl
theorem SlotSteps.syRetire (o : SyOp) : SlotSteps.Statement (.syRetire o) := SlotSteps.of_slot (.sy .syRetire o) rfl rfl
theorem SlotSteps.syIreg (o : SyOp) : SlotSteps.Statement (.syIreg o) := SlotSteps.of_slot (.sy .syIreg o) rfl rfl
theorem SlotSteps.syIend (o : SyOp) : SlotSteps.Statement (.syIend o) := SlotSteps.of_slot (.sy .syIend o) rfl rfl
theorem SlotSteps.syEvent (o : SyOp) : SlotSteps.Statement (.syEvent o) := SlotSteps.of_slot (.sy .syEvent o) rfl rfl
theorem SlotSteps.layout (o : SyOp) : SlotSteps.Statement (.layout o) := SlotSteps.of_slot (.sy .layout o) rfl rfl
theorem SlotSteps.mpsSwap (o : SyOp) : SlotSteps.Statement (.mpsSwap o) := SlotSteps.of_slot (.sy .mpsSwap o) rfl rfl
theorem SlotSteps.granuleStep (d : Fin 4) : SlotSteps.Statement (.granuleStep d) := SlotSteps.of_none rfl
theorem SlotSteps.seifFaultDelivery (c : CoreId) : SlotSteps.Statement (.seifFaultDelivery c) := SlotSteps.of_none rfl
theorem SlotSteps.weightStoreRefresh (b : Fin 64) : SlotSteps.Statement (.weightStoreRefresh b) := SlotSteps.of_none rfl
theorem SlotSteps.userInterruptDelivery (c : CoreId) : SlotSteps.Statement (.userInterruptDelivery c) := SlotSteps.of_none rfl
theorem SlotSteps.slbReplay (c : CoreId) : SlotSteps.Statement (.slbReplay c) := SlotSteps.of_none rfl
theorem SlotSteps.executionFaultStop (c : CoreId) : SlotSteps.Statement (.executionFaultStop c) := SlotSteps.of_none rfl
theorem SlotSteps.supervisorCause (c : CoreId) : SlotSteps.Statement (.supervisorCause c) := SlotSteps.of_none rfl
theorem SlotSteps.sliceExpiry (c : CoreId) : SlotSteps.Statement (.sliceExpiry c) := SlotSteps.of_none rfl
theorem SlotSteps.preempt (c : CoreId) : SlotSteps.Statement (.preempt c) := SlotSteps.of_none rfl
theorem SlotSteps.fabricTimeout (c : CoreId) (seq : Nat) : SlotSteps.Statement (.fabricTimeout c seq) := SlotSteps.of_none rfl
theorem SlotSteps.launchRecordWrite (f : FnId) (q : Fin 64) (r : BitVec 1024) : SlotSteps.Statement (.launchRecordWrite f q r) := SlotSteps.of_none rfl
theorem SlotSteps.launchHalfWrite (f : FnId) (q : Fin 64) (second : Bool) (d : BitVec 512) : SlotSteps.Statement (.launchHalfWrite f q second d) := SlotSteps.of_none rfl
theorem SlotSteps.ergLaunchMessage (port : Fin 16) (q : Fin 64) (r : BitVec 1024) : SlotSteps.Statement (.ergLaunchMessage port q r) := SlotSteps.of_none rfl
theorem SlotSteps.badLaunchWrite (f : FnId) (q : Fin 64) : SlotSteps.Statement (.badLaunchWrite f q) := SlotSteps.of_none rfl
theorem SlotSteps.admission : SlotSteps.Statement .admission := SlotSteps.of_none rfl
theorem SlotSteps.recordExpansion (car : Nat) : SlotSteps.Statement (.recordExpansion car) := SlotSteps.of_none rfl
theorem SlotSteps.recordSelection (c : CoreId) : SlotSteps.Statement (.recordSelection c) := SlotSteps.of_none rfl
theorem SlotSteps.parkedRecordSelect (c : CoreId) : SlotSteps.Statement (.parkedRecordSelect c) := SlotSteps.of_none rfl
theorem SlotSteps.recordWake (id : Nat) : SlotSteps.Statement (.recordWake id) := SlotSteps.of_none rfl
theorem SlotSteps.recordEscalation (id : Nat) : SlotSteps.Statement (.recordEscalation id) := SlotSteps.of_none rfl
theorem SlotSteps.admissionEscalation (q : Fin 64) : SlotSteps.Statement (.admissionEscalation q) := SlotSteps.of_none rfl
theorem SlotSteps.caravanEnd (car : Nat) : SlotSteps.Statement (.caravanEnd car) := SlotSteps.of_none rfl
theorem SlotSteps.bandwidthWindow (ch : Fin 256) : SlotSteps.Statement (.bandwidthWindow ch) := SlotSteps.of_none rfl
theorem SlotSteps.uncorrectableError (u : ErrUnit) : SlotSteps.Statement (.uncorrectableError u) := SlotSteps.of_none rfl
theorem SlotSteps.correctableError (u : ErrUnit) : SlotSteps.Statement (.correctableError u) := SlotSteps.of_none rfl
theorem SlotSteps.channelRetire (k : Fin 8) (ch : Fin 32) (pages : List Nat) : SlotSteps.Statement (.channelRetire k ch pages) := SlotSteps.of_none rfl
theorem SlotSteps.pageMove (k : Fin 8) (page : Nat) (redirect : Bool) : SlotSteps.Statement (.pageMove k page redirect) := SlotSteps.of_none rfl
theorem SlotSteps.clusterRetire (cl : Fin 32) (repl : Option (Fin 32)) : SlotSteps.Statement (.clusterRetire cl repl) := SlotSteps.of_none rfl
theorem SlotSteps.tenantScrubPage (g : Fin 477) (page : Nat) (bad : List (Nat × Bool)) : SlotSteps.Statement (.tenantScrubPage g page bad) := SlotSteps.of_none rfl
theorem SlotSteps.ctxCreate (f : FnId) : SlotSteps.Statement (.ctxCreate f) := SlotSteps.of_none rfl
theorem SlotSteps.ctxDestroy (f : FnId) : SlotSteps.Statement (.ctxDestroy f) := SlotSteps.of_none rfl
theorem SlotSteps.keyGen (f : FnId) : SlotSteps.Statement (.keyGen f) := SlotSteps.of_none rfl
theorem SlotSteps.keySet (f : FnId) : SlotSteps.Statement (.keySet f) := SlotSteps.of_none rfl
theorem SlotSteps.keyErase (f : FnId) : SlotSteps.Statement (.keyErase f) := SlotSteps.of_none rfl
theorem SlotSteps.hold (f : FnId) : SlotSteps.Statement (.hold f) := SlotSteps.of_none rfl
theorem SlotSteps.release (f : FnId) : SlotSteps.Statement (.release f) := SlotSteps.of_none rfl
theorem SlotSteps.checkpoint (f : FnId) : SlotSteps.Statement (.checkpoint f) := SlotSteps.of_none rfl
theorem SlotSteps.restore (f : FnId) : SlotSteps.Statement (.restore f) := SlotSteps.of_none rfl
theorem SlotSteps.checkpointComplete (f : FnId) : SlotSteps.Statement (.checkpointComplete f) := SlotSteps.of_none rfl
theorem SlotSteps.supLoad (f : FnId) : SlotSteps.Statement (.supLoad f) := SlotSteps.of_none rfl
theorem SlotSteps.ctxArea (f : FnId) : SlotSteps.Statement (.ctxArea f) := SlotSteps.of_none rfl
theorem SlotSteps.unknownCommand (f : FnId) (v : W64) : SlotSteps.Statement (.unknownCommand f v) := SlotSteps.of_none rfl
theorem SlotSteps.lockInterfaceRequest (f : FnId) : SlotSteps.Statement (.lockInterfaceRequest f) := SlotSteps.of_none rfl
theorem SlotSteps.startInterfaceRequest (f : FnId) : SlotSteps.Statement (.startInterfaceRequest f) := SlotSteps.of_none rfl
theorem SlotSteps.stopInterfaceRequest (f : FnId) : SlotSteps.Statement (.stopInterfaceRequest f) := SlotSteps.of_none rfl
theorem SlotSteps.getDeviceInterfaceReport (f : FnId) : SlotSteps.Statement (.getDeviceInterfaceReport f) := SlotSteps.of_none rfl
theorem SlotSteps.getDeviceInterfaceState (f : FnId) : SlotSteps.Statement (.getDeviceInterfaceState f) := SlotSteps.of_none rfl
theorem SlotSteps.getTdispVersion (f : FnId) : SlotSteps.Statement (.getTdispVersion f) := SlotSteps.of_none rfl
theorem SlotSteps.getTdispCapabilities (f : FnId) : SlotSteps.Statement (.getTdispCapabilities f) := SlotSteps.of_none rfl
theorem SlotSteps.scrubReceiptRead (f : FnId) : SlotSteps.Statement (.scrubReceiptRead f) := SlotSteps.of_none rfl
theorem SlotSteps.configSpaceWrite (f : FnId) (r : CfgReg) (v : W64) : SlotSteps.Statement (.configSpaceWrite f r v) := SlotSteps.of_none rfl
theorem SlotSteps.assignmentChange (a : Assign) : SlotSteps.Statement (.assignmentChange a) := SlotSteps.of_none rfl
theorem SlotSteps.queueBindingWrite (f : FnId) (q : Fin 64) (v : W64) : SlotSteps.Statement (.queueBindingWrite f q v) := SlotSteps.of_none rfl
theorem SlotSteps.queueStatusWrite (f : FnId) (q : Fin 64) (v : W64) : SlotSteps.Statement (.queueStatusWrite f q v) := SlotSteps.of_none rfl
theorem SlotSteps.modelSlotWrite (m : Fin 16) (v : W64) : SlotSteps.Statement (.modelSlotWrite m v) := SlotSteps.of_none rfl
theorem SlotSteps.errorReportWrite (f : FnId) (v : W64) : SlotSteps.Statement (.errorReportWrite f v) := SlotSteps.of_none rfl
theorem SlotSteps.hkeyWrite (f : FnId) (v : W64) : SlotSteps.Statement (.hkeyWrite f v) := SlotSteps.of_none rfl
theorem SlotSteps.thermWrite (f : FnId) (v : W64) : SlotSteps.Statement (.thermWrite f v) := SlotSteps.of_none rfl
theorem SlotSteps.monitorControlWrite (f : FnId) (m : MonId) (v : W64) : SlotSteps.Statement (.monitorControlWrite f m v) := SlotSteps.of_none rfl
theorem SlotSteps.stackStatusWrite (f : FnId) (k : Fin 8) (v : W64) : SlotSteps.Statement (.stackStatusWrite f k v) := SlotSteps.of_none rfl
theorem SlotSteps.registerWrite (f : FnId) (off : Nat) (v : W64) : SlotSteps.Statement (.registerWrite f off v) := SlotSteps.of_none rfl
theorem SlotSteps.hostMemoryRead (f : FnId) (off : Nat) (n : Nat) (trusted : Bool) : SlotSteps.Statement (.hostMemoryRead f off n trusted) := SlotSteps.of_none rfl
theorem SlotSteps.hostMemoryWrite (f : FnId) (off : Nat) (d : List Byte) (trusted : Bool) : SlotSteps.Statement (.hostMemoryWrite f off d trusted) := SlotSteps.of_none rfl
theorem SlotSteps.deviceReset (k : ResetKind) : SlotSteps.Statement (.deviceReset k) := SlotSteps.of_none rfl
theorem SlotSteps.functionLevelReset (f : FnId) : SlotSteps.Statement (.functionLevelReset f) := SlotSteps.of_none rfl
theorem SlotSteps.twarnReached (t : BitVec 8) : SlotSteps.Statement (.twarnReached t) := SlotSteps.of_none rfl
theorem SlotSteps.ttripReached (t : BitVec 8) : SlotSteps.Statement (.ttripReached t) := SlotSteps.of_none rfl
theorem SlotSteps.tmaxFallsBelowTwarn (t : BitVec 8) : SlotSteps.Statement (.tmaxFallsBelowTwarn t) := SlotSteps.of_none rfl
theorem SlotSteps.debugTraceRequest (p : DebugPort) : SlotSteps.Statement (.debugTraceRequest p) := SlotSteps.of_none rfl
theorem SlotSteps.ergPeerAccess (dev : Nat) (a : PeerAccess) : SlotSteps.Statement (.ergPeerAccess dev a) := SlotSteps.of_none rfl
theorem SlotSteps.onDemandScrub (unit : Nat) (n : Nat) : SlotSteps.Statement (.onDemandScrub unit n) := SlotSteps.of_none rfl
theorem SlotSteps.attestationRequest (f : FnId) : SlotSteps.Statement (.attestationRequest f) := SlotSteps.of_none rfl
theorem SlotSteps.spdmKeyMessage (f : FnId) (session : W64) (material : BitVec 512) : SlotSteps.Statement (.spdmKeyMessage f session material) := SlotSteps.of_none rfl
theorem SlotSteps.ideStreamStateChange (f : FnId) (secure : Bool) : SlotSteps.Statement (.ideStreamStateChange f secure) := SlotSteps.of_none rfl

end Sys2Proof.Laws
end

