-- ==== Sys2Proof/Tests/Slice0.lean ====
section
/-! SUPPORT. Tests of the model, expected values from the spec's rules and worked encodings: for every statement with
premises, states and operands that meet them (test_witness_…); one step of an operation or an event on a small state;
words of each family as the spec writes them out; and terms that no encoding admits, one for each check of
well-formedness. -/

namespace Sys2Proof.Tests
open Sys2Proof Sys2Proof.Machine Sys2Proof.Stated

set_option Elab.async false

/-! ### States and operations that the tests use -/

/-- A core that runs a record of a caravan at user level, with a frame carve-out and the matrix buffer its own. -/
def core0 : Core :=
  { Core.reset with
    w := { Sw.reset with
      flo := 0x100, fhi := 0x1000, fsp := 0x800, carea := 0x40100000, ptb := 0x40000000, aown := 0x1000 }
    car := some 0, run := some 0, lineCtx := some 0 }

/-- The device around it: one context, one caravan, the granules 0 and 1 of function 0. -/
def dev0 : Dev :=
  { Dev.reset with
    ctxs := [placedCtx], cars := [placedCar 0], recs := [placedRec 0]
    clus := Dev.reset.clus.set 0 ⟨some 0, false, false⟩
    grans := (Dev.reset.grans.set 0 ⟨some 0, false⟩).set 1 ⟨some 0, false⟩
    keys := [(0, ⟨none, true, .slot0⟩), (1, ⟨some 0, false, .random 0⟩)] }

/-- A machine whose core 0 and device are given. -/
def sys (k : Core) (d : Dev) : State := { State.reset with cores := State.reset.cores.set 0 k, d := d }

/-- Every core but core 0 is as at reset. -/
theorem sys_core (k : Core) (d : Dev) (c : CoreId) : (sys k d).core c = if c.val = 0 then k else Core.reset := by
  show ((Vector.replicate 320 Core.reset).set 0 k)[c.val] = _
  simp only [Vector.getElem_set, Vector.getElem_replicate, eq_comm]

/-- A user stream on core 0. -/
def user : State := sys core0 dev0
/-- A supervisor stream at a level. -/
def level (n : BitVec 2) : State := sys { (core0.modW fun w => { w with pl := n }) with sup := true } dev0
/-- The handler of a user interrupt. -/
def handler : State := sys (core0.modW fun w => { w with uih := true }) dev0
/-- A user stream whose core is changed. -/
def userWith (g : Core → Core) : State := sys (g core0) dev0

/-- A format of a class. -/
def fmtOf : FmtClass → Fmt
  | .zero => .none | .int | .intPh => .i64 | .ph => .ph16 | .phc32 => .phc32 | _ => .f32
/-- A guarding with no condition and no arrival. -/
def gd0 : Guarding := ⟨0, false, none⟩
/-- An operation of the common layout, from its row of the operation map (R77): a from register 3, b from 4, c from 5. -/
def sample (t : AluTag) : AluOp :=
  let r := t.row
  let src := fun (k : OpKind) (n : BitVec 6) => if k = .none then Src.zero else .reg n
  ⟨if r.vec then .va else .s, 1, 0, if r.dk = .none then 0 else 2, false, src r.ak 3, src r.bk 4, src r.ck 5, gd0, 0,
   if r.vec then 2 else 1, { CtlWord.plain with fa := fmtOf r.fa, fb := fmtOf r.fb, fc := fmtOf r.fc, fd := fmtOf r.fd }⟩

/-- An operation passes the checks of its issue and is not squashed. -/
def issuable (s : State) (x : SlotOp) : Bool := (s.checks s.cur [(x.slot, x)] == none) && s.me.runs x

theorem issues_of {s : State} {x : SlotOp} (h : issuable s x = true) : Issues x s := by
  simpa [issuable, Issues] using h

theorem all_issue {α : Type} {l : List α} {f : α → SlotOp} {g : α → State}
    (h : (l.all fun x => issuable (g x) (f x)) = true) : ∀ x ∈ l, Issues (f x) (g x) :=
  fun x hx => issues_of (List.all_eq_true.mp h x hx)

theorem rows_issue {α : Type} {rows : List α} {tag : α → AluTag} {s : State}
    (h : (rows.all fun r => issuable s (.alu (tag r) (sample (tag r)))) = true) :
    ∀ r ∈ rows, Issues (.alu (tag r) (sample (tag r))) s := all_issue (g := fun _ => s) h

/-- The one result that a step leaves in the pipelines of core 0: its bits, flags, and the cycles it waits. -/
def resultOf (o : Host.Outcome State Fault Refusal) : Option (Nat × BitVec 5 × Nat) :=
  match o with
  | .next t => match (t.core 0).q.pend with
    | [p] => some (p.val.toNat, p.flags, p.due - (t.core 0).f.cyc)
    | _ => none
  | _ => none

/-- The state after a step, where there is one. -/
def after (o : Host.Outcome State Fault Refusal) : State :=
  match o with
  | .next t => t
  | _ => State.reset

/-- Core 0 with a, b and c in s3, s4 and s5. -/
def withS (a b c : W64) : State :=
  userWith fun k => { k with r := { k.r with s := ((k.r.s.set 3 a).set 4 b).set 5 c } }
/-- Core 0 with a, b and c in v3, v4 and v5. -/
def withV (a b c : W1024) : State :=
  userWith fun k => { k with r := { k.r with v := ((k.r.v.set 3 a).set 4 b).set 5 c } }
/-- An operation on one integer format. -/
def onInt (t : AluTag) (f : Fmt) (m : Sat := .none) : AluOp :=
  let o := sample t
  let g := fun (x : Fmt) => if x = .none then x else f
  { o with cw := { o.cw with fa := g o.cw.fa, fb := g o.cw.fb, fc := g o.cw.fc, fd := g o.cw.fd, sat := m } }

/-! ### Issue, and the operations of the S slot -/

theorem test_witness_IssueOutcomes :
    user.checks 0 [(0, .alu .add { sample .add with msk := 2 })] = some ⟨.encoding, 0, 0⟩ ∧
    user.checks 0 [(0, .alu .cwtWr (sample .cwtWr))] = some ⟨.privilege, 0, 0⟩ ∧
    (∀ arr ∈ [none, some 3, some 15], let x : SlotOp := .alu .add { sample .add with gd := ⟨0, true, arr⟩ }
      user.checks 0 [(0, x)] = none ∧ user.me.runs x = false ∧ (slotGd x).arr = arr) := by decide +kernel

theorem test_witness_ScalarResults :
    (∀ r ∈ integerRows, Issues (.alu r.2.1 (sample r.2.1)) user) ∧
    (∀ t ∈ [AluTag.sel, .phmul, .phsub, .cvt], Issues (.alu t (sample t)) user) ∧
    Issues (.alu .cvt { sample .cvt with cw := { CtlWord.plain with fa := .ph8, fd := .ph16 } }) user :=
  ⟨rows_issue (by decide +kernel), rows_issue (by decide +kernel), issues_of (by decide +kernel)⟩

theorem test_witness_DivisionAndOverflow :
    (∀ b ∈ [(0 : W64), 1, 0xFFFFFFFFFFFFFFFF], Issues (.alu .div (sample .div)) (withS 5 b 0)) ∧
    (∀ b ∈ [(0 : W64), 1, 0xFFFFFFFFFFFFFFFF], Issues (.alu .rem (sample .rem)) (withS 5 b 0)) ∧
    (∀ m ∈ [Sat.none, .sat, .satf], (onInt .add .i8 m).cw.fd.isInt = true ∧ (onInt .div .i64 m).cw.fd.isI = true ∧
      (onInt .div .i64 m).cw.post ≠ .clamp ∧ (onInt .add .n8 m).cw.sat = m) :=
  ⟨all_issue (by decide +kernel), all_issue (by decide +kernel), by decide +kernel⟩

theorem test_witness_GuardResults :
    (∀ r ∈ compareRows, Issues (.alu r.2.1 (sample r.2.1)) user) ∧
    (∀ r ∈ guardRows, Issues (.alu r.2.1 (sample r.2.1)) user) ∧
    (∀ x ∈ [(AluTag.gtos, 0), (.gtos, 1), (.stog, 0), (.stog, 1)], Issues (.alu x.1 { sample x.1 with imm := x.2 }) user) ∧
    (SlotOp.alu .gtos { sample .gtos with imm := 2 }).encOk = false ∧
    (∀ t ∈ [AluTag.gand, .gor, .gxor, .gandn, .gtos, .stog, .cmpEq, .cmpNe, .cmpLt, .cmpLe], (sample t).encOk t = true) :=
  ⟨rows_issue (by decide +kernel), rows_issue (by decide +kernel), all_issue (g := fun _ => user) (by decide +kernel),
   by decide +kernel, by decide +kernel⟩

/-- R121: add wraps under SAT 00 (R95): 127 + 1 is −128 in i8, extended to 64 bits. -/
theorem test_add : resultOf (exec (.add (onInt .add .i8)) (withS 127 1 0)) = some (2 ^ 64 - 128, 0, 0) := by decide +kernel
/-- R72: SAT 10 bounds it to 127 and sets SAT. -/
theorem test_add_saturates : resultOf (exec (.add (onInt .add .i8 .satf)) (withS 127 1 0)) = some (127, flagSat, 0) := by
  decide +kernel
theorem test_sub : resultOf (exec (.sub (onInt .sub .n16)) (withS 3 5 0)) = some (0xFFFE, 0, 0) := by decide +kernel
theorem test_mul : resultOf (exec (.mul (onInt .mul .i32)) (withS (BitVec.ofInt 64 (-3)) 7 0)) = some (2 ^ 64 - 21, 0, 2) := by decide +kernel
theorem test_mulh : resultOf (exec (.mulh (onInt .mulh .n64)) (withS (2 ^ 63) 6 0)) = some (3, 0, 2) := by decide +kernel
theorem test_min : resultOf (exec (.min (onInt .min .i64)) (withS (BitVec.ofInt 64 (-1)) 1 0)) = some (2 ^ 64 - 1, 0, 0) := by decide +kernel
theorem test_max : resultOf (exec (.max (onInt .max .n64)) (withS (BitVec.ofInt 64 (-1)) 1 0)) = some (2 ^ 64 - 1, 0, 0) := by decide +kernel
theorem test_mov : resultOf (exec (.mov (onInt .mov .i8)) (withS 0x180 0 0)) = some (2 ^ 64 - 128, 0, 0) := by decide +kernel
theorem test_and : resultOf (exec (.and (onInt .and .n64)) (withS 0xF0F 0xFF 0)) = some (0x0F, 0, 0) := by decide +kernel
theorem test_or : resultOf (exec (.or (onInt .or .n64)) (withS 0xF00 0xFF 0)) = some (0xFFF, 0, 0) := by decide +kernel
theorem test_xor : resultOf (exec (.xor (onInt .xor .n8)) (withS 0xF0 0xFF 0)) = some (0x0F, 0, 0) := by decide +kernel
theorem test_andn : resultOf (exec (.andn (onInt .andn .n8)) (withS 0xFF 0x0F 0)) = some (0xF0, 0, 0) := by decide +kernel
theorem test_shl : resultOf (exec (.shl (onInt .shl .n8)) (withS 0x81 1 0)) = some (2, 0, 0) := by decide +kernel
theorem test_shr_signed : resultOf (exec (.shr (onInt .shr .i8)) (withS 0x80 3 0)) = some (2 ^ 64 - 16, 0, 0) := by decide +kernel
theorem test_rotl : resultOf (exec (.rotl (onInt .rotl .n8)) (withS 0x81 1 0)) = some (3, 0, 0) := by decide +kernel
theorem test_sel : resultOf (exec (.sel { sample .sel with c := .reg 0 }) (withS 6 9 0)) = some (6, 0, 0) := by decide +kernel
theorem test_sel_else : resultOf (exec (.sel (sample .sel)) (withS 6 9 0)) = some (9, 0, 0) := by decide +kernel
theorem test_fma : resultOf (exec (.fma (onInt .fma .i64)) (withS 6 7 1)) = some (43, 0, 2) := by decide +kernel
theorem test_fms : resultOf (exec (.fms (onInt .fms .i64)) (withS 6 7 1)) = some (41, 0, 2) := by decide +kernel
/-- R122: −7 div 2 truncates to −3, and rem leaves −1. -/
theorem test_div : resultOf (exec (.div (onInt .div .i32)) (withS (BitVec.ofInt 64 (-7)) 2 0)) = some (2 ^ 64 - 3, 0, 17) := by decide +kernel
theorem test_div_by_zero : resultOf (exec (.div (onInt .div .n16)) (withS 7 0 0)) = some (0xFFFF, flagDiv0, 17) := by decide +kernel
theorem test_rem : resultOf (exec (.rem (onInt .rem .i64)) (withS (BitVec.ofInt 64 (-7)) 2 0)) = some (2 ^ 64 - 1, 0, 33) := by decide +kernel
theorem test_rem_by_zero : resultOf (exec (.rem (onInt .rem .i64)) (withS 7 0 0)) = some (7, flagDiv0, 33) := by decide +kernel
theorem test_clz : resultOf (exec (.clz (onInt .clz .n16)) (withS 1 0 0)) = some (15, 0, 0) := by decide +kernel
theorem test_popc : resultOf (exec (.popc (onInt .popc .n64)) (withS 0xF0F 0 0)) = some (8, 0, 0) := by decide +kernel
theorem test_cmpEq : resultOf (exec (.cmpEq (sample .cmpEq)) (withS 4 4 0)) = some (2 ^ 128 - 1, 0, 0) := by decide +kernel
theorem test_cmpNe : resultOf (exec (.cmpNe (sample .cmpNe)) (withS 4 4 0)) = some (0, 0, 0) := by decide +kernel
theorem test_cmpLt : resultOf (exec (.cmpLt (sample .cmpLt)) (withS (BitVec.ofInt 64 (-1)) 0 0)) = some (2 ^ 128 - 1, 0, 0) := by decide +kernel
theorem test_cmpLe : resultOf (exec (.cmpLe (onInt .cmpLe .n64)) (withS (BitVec.ofInt 64 (-1)) 0 0)) = some (0, 0, 0) := by decide +kernel
theorem test_gand : resultOf (exec (.gand { sample .gand with b := .reg 0 }) user) = some (0, 0, 0) := by decide +kernel
theorem test_gor : resultOf (exec (.gor { sample .gor with b := .reg 0 }) user) = some (2 ^ 128 - 1, 0, 0) := by decide +kernel
theorem test_gxor : resultOf (exec (.gxor { sample .gxor with a := .reg 0, b := .reg 0 }) user) = some (0, 0, 0) := by decide +kernel
theorem test_gandn : resultOf (exec (.gandn { sample .gandn with a := .reg 0 }) user) = some (2 ^ 128 - 1, 0, 0) := by decide +kernel
theorem test_gtos : resultOf (exec (.gtos { sample .gtos with a := .reg 0, imm := 1 }) user) = some (2 ^ 64 - 1, 0, 0) := by decide +kernel
theorem test_stog : resultOf (exec (.stog { sample .stog with imm := 1 }) (withS 5 0 0)) = some (5 * 2 ^ 64, 0, 0) := by decide +kernel

/-! ### Bundles, results and landings -/

/-- A bundle that is fetched, expanded, with the address after it. -/
theorem bundle_of {x : Except Trap (Option (W512 × W64))} {e : W512} {n : W64}
    (h : (match x with
      | .ok (some y) => decide (y = (e, n))
      | _ => false) = true) : x = .ok (some (e, n)) := by
  split at h <;> simp_all

/-- The stored bundle of `add s10, s9, 1` of chapter 03, and the control word it names, as the first instruction after reset. -/
def addPlaced : State := State.reset.withFetchWord 352 (natOf (bytesOf 4 0x01 ++ bytesOf 8 0x0010010104245001 ++ bytesOf 32 0x07077101))
/-- Its expansion. -/
def addBundle : W512 := BitVec.ofNat 512 (0x0010010104245001 * 2 ^ 32 + 1)
/-- The operation it holds. -/
def addOp : AluOp :=
  ⟨.s, 1, 0, 10, false, .reg 9, .imm, .zero, gd0, 1, 1, { CtlWord.plain with fa := .i64, fb := .i64, fd := .i64 }⟩
/-- The state in which its bundle issues. -/
def addReady : State := { addPlaced with agenda := [], fresh := addPlaced.fresh + 1 }

theorem may_issue_of {c : CoreId} {s : State} {e : W512} {npc : W64}
    (h : ((s.core c).atBoundary && !s.d.inReset && !(s.core c).stopPending && !(s.core c).uiPending && !(s.core c).holding
      && s.issue.isEmpty && !s.fetchLate c && !s.detNow c && !s.seqHeld c && (s.bundleChecks c e).isNone
      && !State.queueFull (s.core c) (opsOf s c e) && !State.uiHeld (s.core c) (opsOf s c e)) = true)
    (hb : s.nextBundle c = .ok (some (e, npc))) : MayIssue c s e npc := by
  simp only [Bool.and_eq_true, Bool.not_eq_true', Option.isNone_iff_eq_none, List.isEmpty_iff] at h
  obtain ⟨⟨⟨⟨⟨⟨⟨⟨⟨⟨⟨a, b⟩, c'⟩, d⟩, f⟩, g⟩, n⟩, i⟩, j⟩, k⟩, l⟩, m⟩ := h
  exact ⟨a, b, c', d, f, g, n, hb, fun h => absurd h (by simp [i]), j, k, l, m⟩

theorem test_witness_StepRunsTheOperationAtThePc :
    addPlaced.d.inReset = false ∧ addPlaced.agenda = .act (.bundleIssue 0) :: [] ∧ MayIssue 0 addReady addBundle 12 ∧
    (addReady.core 0).f.held = false ∧ addReady.idleOwed 0 = 0 ∧ opsOf addReady 0 addBundle = [.alu .add addOp] :=
  ⟨by decide +kernel, by decide +kernel, may_issue_of (by decide +kernel) (bundle_of (by decide +kernel)), by decide +kernel,
   by decide +kernel, by decide +kernel⟩

/-- The step issues it and leaves 0 + 1 for s10, with the pc behind the 12 bytes of the bundle. -/
theorem test_step_add :
    resultOf (step addPlaced) = some (1, 0, 0) ∧ ((after (step addPlaced)).core 0).f.pc = 12 ∧
    ((after (step addPlaced)).core 0).q.pend.map Pend.dest = [.s 10 false] := by decide +kernel

theorem test_decode_placed : decodeTableWord 352 (natOf (bytesOf 4 0x01 ++ bytesOf 8 0x0010010104245001 ++ bytesOf 32 0x07077101)) =
    some (.add addOp) := by decide +kernel

/-- Core 0 with a bundle to issue next, as a KIND 7 record leaves it. -/
def heldNext (e : W512) (held : Bool) : State :=
  userWith fun k => k.modF fun f => { f with next := some e, nextNpc := 0x80, held := held, fixed := some 0 }

/-- The control word of `add` in place of entry 1 of the CWT. -/
def withAddWord (s : State) : State := s.modCore 0 fun k => k.modM fun m => { m with cwt := m.cwt.set 1 0x07077101 }

/-- A user stream whose tables lie in no granule of its function. -/
def unmapped : State := user.modD fun d => { d with grans := Dev.reset.grans }

theorem test_witness_BundlesIssueOrTrap :
    (MayIssue 0 (withAddWord (heldNext addBundle false)) addBundle 0x80 ∧ ((withAddWord (heldNext addBundle false)).core 0).f.held = false ∧
      (withAddWord (heldNext addBundle false)).idleOwed 0 = 0) ∧
    (let s := withAddWord (heldNext addBundle true)
     MayIssue 0 s addBundle 0x80 ∧ MayIssue 0 (s.sampleHold 0) addBundle 0x80 ∧ (s.core 0).f.held = true) ∧
    (∀ s ∈ [unmapped, addReady, heldNext addBundle false], (s.core 0).atBoundary = true ∧ s.d.inReset = false ∧ (s.core 0).stopPending = false ∧
      (s.core 0).uiPending = false ∧ (s.core 0).holding = false ∧ s.issue = [] ∧ s.fetchLate 0 = false ∧ (s.core 0).f.held = false) ∧
    unmapped.idleOwed 0 = 0 ∧ (match unmapped.nextBundle 0 with | .error _ => true | _ => false) = true ∧
    (match (State.reset.withFetchWord 32 0x80000000).nextBundle 0, (State.reset.withFetchWord 32 0x80000000).fetch 0 0 with
      | .ok none, .ok _ => true
      | _, _ => false) = true ∧
    (heldNext addBundle false).bundleChecks 0 addBundle = some ⟨.encoding, 0, 0⟩ ∧ (heldNext addBundle false).detNow 0 = false ∧
    (heldNext addBundle false).seqHeld 0 = false :=
  ⟨⟨may_issue_of (by decide +kernel) (bundle_of (by decide +kernel)), by decide +kernel, by decide +kernel⟩,
   ⟨may_issue_of (by decide +kernel) (bundle_of (by decide +kernel)), may_issue_of (by decide +kernel) (bundle_of (by decide +kernel)),
    by decide +kernel⟩, by decide +kernel, by decide +kernel, by decide +kernel, by decide +kernel, by decide +kernel, by decide +kernel,
   by decide +kernel⟩

/-- A result of the S slot for a destination, due now. -/
def pendTo (d : Dest) : Pend :=
  { (result core0 (.alu .add (sample .add)) 0 1 d 0x1122334455667788 (BitVec.allOnes 128) (some 0) 7 flagSat (some 5)) with due := 0 }
/-- Core 0 at the end of a cycle with results in its pipelines, and in its snapshot bank. -/
def atEnd (ps slb : List Pend) : State :=
  userWith fun k => (k.modF fun f => { f with at_ := .after }).modQ fun q => { q with pend := ps, slb := slb }

theorem test_witness_ResultsReachTheirDestination :
    (let p := pendTo (.s 63 true)
     WritesNext 0 (atEnd [p] []) p ∧ p ∈ ((atEnd [p] []).core 0).q.pend ∧ WritesNext 0 (atEnd [] [p]) p ∧
     ¬ p ∈ ((atEnd [] [p]).core 0).q.pend) ∧
    (∀ d ∈ [Dest.s 0 false, .s 63 true, .v 63, .g 1, .g 15, .mp 7, .sh 15 false], (pendTo d).dest = d) := by
  refine ⟨?_, by decide +kernel⟩
  simp only [WritesNext]
  decide +kernel

/-- R15: a 32-bit write leaves the upper half of sD. -/
theorem test_writeBack_low :
    ((after (exec (.resultWriteback 0) (atEnd [pendTo (.s 63 true)] []))).core 0).r.s[63] = 0x55667788 := by decide +kernel
/-- R24: the scalar latches shift and x0 takes the value; R145: SAT is set; R66: the arrival is made. -/
theorem test_writeBack_latch :
    let k := (after (exec (.resultWriteback 0) (atEnd [pendTo (.s 3 false)] []))).core 0
    k.r.x[0] = 7 ∧ k.r.xv = 1 ∧ k.w.flags = flagSat ∧ k.q.arr.map Prod.fst = [5] := by decide +kernel
theorem test_slbReplay :
    ((after (exec (.slbReplay 0) (atEnd [] [pendTo (.s 63 false)]))).core 0).r.s[63] = 0x1122334455667788 := by decide +kernel

theorem test_witness_WriteBackShiftsLatchesAndSetsFlags :
    (∀ d ∈ [Dest.s 3 false, .none, .v 0], (pendTo d).dest ≠ .sw 0 ∧ (∀ b : Fin 16, ∀ i : Bool, (pendTo d).dest ≠ .bar b i)) ∧
    (pendTo .none).shift = some 0 ∧ ({ pendTo .none with shift := none }).shift = none := by
  refine ⟨by decide +kernel, rfl, rfl⟩

/-- An entry of the load queue whose landing is in cycle n. -/
def loadEntry (kind : QKind) (d : Dest) (n : Nat) (done : Bool) (ret : Ret) (data : W1024) : QEnt :=
  ⟨3, kind, 0, 0, .loc, 64, 0, 8, data, 0, some n, d, true, 8, done, ret, 0, 0, 0, false, false, none, none, false⟩
/-- Core 0 at the end of its cycle with loads. -/
def loading (es : List QEnt) (g : Front → Front := id) : State :=
  userWith fun k => (k.modF fun f => g { f with at_ := .after }).modQ fun q => { q with ld := es }

theorem test_witness_DataReturnsAndFreezes :
    (let e := loadEntry (.op .ld) (.s 3 false) 0 true .none 5
     (((loading [e]).core 0).q.ld ++ ((loading [e]).core 0).q.at_).find? (fun e => e.seq == 3 && e.land.isSome && e.done && e.ret == .none
      && decide (e.until_ ≤ (loading [e]).d.tick)) = some e) ∧
    (∀ s ∈ [loading [loadEntry (.op .ld) (.s 3 false) 0 false .none 5],
        (loading [loadEntry (.op .ld) (.s 3 false) 0 false .none 5] fun f => { f with at_ := .start }).modCore 0 fun k =>
          k.modW fun w => { w with det := true }],
      (s.core 0).active = true ∧ (s.core 0).dueLandings ≠ [] ∧ (s.core 0).f.frozen = false ∧ (s.core 0).lateLanding = true) ∧
    (let e := { loadEntry (.op .ld) (.s 3 false) 0 true .none 5 with bound := true }
     ((loading [e]).core 0).dueLandings.any ((loading [e]).bounded 0) = true ∧ ((loading [e]).core 0).lateLanding = true) ∧
    (∀ s ∈ [loading [loadEntry (.op .ld) (.s 3 false) 0 false .none 5]], (s.core 0).dueLandings.any (s.bounded 0) = false) ∧
    (user.core 0).active = true ∧ (user.core 0).mx.bankDue[0] = (user.core 0).f.cyc ∧ (user.core 0).f.bankFrozen = false ∧
    ¬ (0 : Fin 16) ∈ (user.core 0).lateBanks := by decide +kernel

/-- R28: a landing whose data is not there freezes the core. -/
theorem test_landing_freezes :
    ((after (exec (.landingDue 0) (loading [loadEntry (.op .ld) (.s 3 false) 0 false .none 5]))).core 0).f.frozen = true := by decide +kernel
/-- R27: the data returns into the oasis before its landing cycle. -/
theorem test_data_to_oasis :
    ((after (exec (.loadDataReturn 0 3) (loading [loadEntry (.op .ld) (.s 3 false) 9 true .none 5]))).core 0).q.ld.map QEnt.ret = [.oasis] := by
  decide +kernel
/-- R27: a landing writes its register, and x12 takes the data. -/
theorem test_landing :
    let k := (after (exec (.landingDue 0) (loading [loadEntry (.op .ld) (.s 9 false) 0 true .oasis 5]))).core 0
    k.r.s[9] = 5 ∧ k.r.x[12] = 5 ∧ k.q.ld = [] := by decide +kernel

/-- A load of the spill RAM of the ST slot that is due with the landings of its cycle. -/
def spillLoad : Pend := { pendTo (.s 9 false) with ord := 3, seq := 5 }
/-- Core 0 with that load and a landing of the LD slot, both to s9. -/
def twoWrites (n : Nat) : State := (loading [{ loadEntry (.op .ld) (.s 9 false) 0 true .oasis 5 with seq := n }]).modCore 0 fun k =>
  k.modQ fun q => { q with pend := [spillLoad] }
/-- R20: of two writes of one register in a cycle the later issued stands. -/
theorem test_later_write_stands :
    ((after (exec (.landingDue 0) (twoWrites 3))).core 0).r.s[9] = 0x1122334455667788 ∧
    ((after (exec (.landingDue 0) (twoWrites 6))).core 0).r.s[9] = 5 := by decide +kernel

/-- R133: a popped frame transfers to its target. -/
theorem test_retFrame :
    ((after (exec (.retFrameLanding 0) (loading [loadEntry .pop .none 0 true .onTime 0x1230]))).core 0).f.pc = 0x1230 := by decide +kernel

theorem test_witness_LandingsAndPoppedFrames :
    (∀ e ∈ [loadEntry (.op .ld) (.s 9 false) 0 true .oasis 5, loadEntry (.op .ld) (.v 63) 0 true .onTime 5],
      let s := loading [e]
      (s.core 0).active = true ∧ (s.core 0).f.at_ = .after ∧ (s.core 0).f.frozen = false ∧ (s.core 0).dueLandings = [e] ∧
      State.isPop e = false ∧ e.ret ≠ .none ∧ State.writesFirst (s.core 0) = false) ∧
    (∀ e ∈ [loadEntry .pop .none 0 true .onTime 0x1230, loadEntry .pop .none 0 true .onTime 0x1231],
      let s := loading [e]
      (s.core 0).dueLandings.find? State.isPop = some e ∧ (s.core 0).f.at_ = .after ∧ (s.core 0).f.frozen = false ∧
      (s.core 0).lateLanding = false ∧ State.writesFirst (s.core 0) = false) ∧
    (∀ n ∈ [3, 6], ((twoWrites n).core 0).dueLandings.length = 1 ∧ State.writesFirst ((twoWrites n).core 0) = false ∧
      ((twoWrites n).core 0).q.pend.filter (fun p => p.ord == 3 && decide (p.due ≤ ((twoWrites n).core 0).f.cyc)) = [spillLoad]) ∧
    (match decodeSlot false 0 (SlotOp.alu .uiret (sample .uiret)).body (SlotOp.alu .uiret (sample .uiret)).ctl with | some (.alu .uiret _) => true | _ => false) = true ∧
    (State.frameTarget (loadEntry .pop .none 0 true .onTime 0x1230)).getLsbD 0 = false ∧
    (State.frameTarget (loadEntry .pop .none 0 true .onTime 0x1231)).getLsbD 0 = true := by decide +kernel

/-! ### Control, status words and stops -/

/-- A branch by 8 bundles of 2 bytes. -/
def brOp : BrOp := ⟨0, 0, 8, gd0, 0⟩
/-- Core 0 with values of LC and EC. -/
def counting (lc : BitVec 32) (ec : BitVec 5) : State := userWith fun k => k.modW fun w => { w with lc := lc, ec := ec }

theorem test_witness_BranchesAndLoops :
    Issues (.br .br brOp) user ∧ Issues (.alu .jr (sample .jr)) user ∧
    (∀ n ∈ [(0 : BitVec 32), 1, 0xFFFFFFFF], Issues (.br .loopBr brOp) (counting n 1)) ∧ (counting 0 1).me.w.lc = 0 ∧ (counting 1 1).me.w.lc ≠ 0 :=
  ⟨issues_of (by decide +kernel), issues_of (by decide +kernel), all_issue (by decide +kernel), by decide +kernel, by decide +kernel⟩

theorem test_br : ((after (exec (.br brOp) (userWith fun k => k.modF fun f => { f with ipc := 0x100 }))).core 0).f.pc = 0x110 := by decide +kernel
theorem test_br_back :
    ((after (exec (.br { brOp with disp := 0xFFFFB8 }) (userWith fun k => k.modF fun f => { f with ipc := 0x100 }))).core 0).f.pc = 0x70 := by
  decide +kernel
theorem test_jr : let k := (after (exec (.jr (sample .jr)) (withS 0xFFFF000000000240 0 0))).core 0
    k.f.pc = 0x240 ∧ k.f.extra = 3 := by decide +kernel
/-- R134: LC 2 above EC 1: LC, RB and the stage guard all ones, at physical guard 8 + 15 mod 8. -/
theorem test_loopBr :
    ((after (exec (.loopBr brOp) (counting 2 1))).core 0).q.pend.map (fun p => (p.dest, p.val.toNat)) =
      [(.sw 2, 1), (.sw 1, 15), (.g 15, 2 ^ 128 - 1)] := by decide +kernel
theorem test_loopBr_drains :
    ((after (exec (.loopBr brOp) (counting 1 1))).core 0).q.pend.map (fun p => (p.dest, p.val.toNat)) =
      [(.sw 2, 0), (.sw 1, 15), (.g 15, 0)] := by decide +kernel

/-- Core 0 with an overflowed frame. -/
def overflowed : State := userWith fun k => k.modW fun w => { w with ovb := 0x1000, ovp := 0x1010 }
/-- Core 0 with no room below FSP. -/
def fullStack : State := userWith fun k => k.modW fun w => { w with fsp := 0x100 }
/-- Core 0 with no frame. -/
def emptyStack : State := userWith fun k => k.modW fun w => { w with fsp := 0x1000 }

theorem test_witness_CallsAndReturns :
    (∀ s ∈ [user, fullStack], Issues (.br .call brOp) s) ∧ (∀ s ∈ [user, fullStack], Issues (.alu .callr (sample .callr)) s) ∧
    (∀ s ∈ [user, overflowed], Issues (.alu .ret (sample .ret)) s) ∧
    (¬ user.me.w.ovb < user.me.w.ovp ∧ user.me.w.fsp.toNat + 16 ≤ user.me.w.fhi.toNat) ∧ overflowed.me.w.ovb < overflowed.me.w.ovp ∧
    (¬ emptyStack.me.w.ovb < emptyStack.me.w.ovp ∧ ¬ emptyStack.me.w.fsp.toNat + 16 ≤ emptyStack.me.w.fhi.toNat ∧
      emptyStack.me.runs (.alu .ret (sample .ret)) = true) ∧
    emptyStack.checks 0 [(0, .alu .ret (sample .ret))] = some ⟨.protection, 0, 0x1000⟩ :=
  ⟨all_issue (f := fun _ => _) (g := id) (by decide +kernel), all_issue (f := fun _ => _) (g := id) (by decide +kernel),
   all_issue (f := fun _ => _) (g := id) (by decide +kernel), by decide +kernel, by decide +kernel, by decide +kernel, by decide +kernel⟩

/-- R36: a call pushes the address of the bundle behind it 16 bytes below FSP. -/
theorem test_call :
    let k := (after (exec (.call brOp) (userWith fun k => k.modF fun f => { f with npc := 0xABCDE0, ipc := 0x40 }))).core 0
    k.w.fsp = 0x7F0 ∧ k.m.spad.read 0x7F0 4 = [0xE0, 0xCD, 0xAB, 0] ∧ k.f.pc = 0x50 := by decide +kernel
theorem test_callr_overflows :
    let k := (after (exec (.callr (sample .callr)) fullStack)).core 0
    k.w.ovp = 16 ∧ k.q.st.map QEnt.addr = [0] ∧ k.w.fsp = 0x100 := by decide +kernel
theorem test_ret :
    let k := (after (exec (.ret (sample .ret)) (userWith fun k => k.modM fun m => { m with spad := m.spad.write 0x800 [0x40, 0x12] }))).core 0
    k.f.pc = 0x1240 ∧ k.w.fsp = 0x810 ∧ k.f.extra = 3 := by decide +kernel

theorem test_witness_StatusAndParameterWords :
    (∀ i ∈ [(0 : BitVec 12), 0x16, 0x20, 0x27, 0x40, 0x5F], Issues (.alu .mfsw { sample .mfsw with imm := i }) (level 1)) ∧
    (∀ i ∈ [(0 : BitVec 12), 2, 3], Issues (.alu .mtsw { sample .mtsw with imm := i }) user) ∧
    Issues (.alu .movMp { sample .movMp with d := 7 }) user ∧ Issues (.alu .mfmp { sample .mfmp with imm := 7 }) user :=
  ⟨all_issue (f := fun i => .alu .mfsw { sample .mfsw with imm := i }) (g := fun _ => level 1) (by decide +kernel),
   all_issue (f := fun (i : BitVec 12) => .alu .mtsw { sample .mtsw with imm := i }) (g := fun _ => user) (by decide +kernel),
   issues_of (by decide +kernel), issues_of (by decide +kernel)⟩

theorem test_mfsw : resultOf (exec (.mfsw { sample .mfsw with imm := 6 }) user) = some (0x1000, 0, 0) := by decide +kernel
theorem test_mtsw :
    ((after (exec (.mtsw { sample .mtsw with imm := 2 }) (withS 0x1FFFFFFFF 0 0))).core 0).q.pend.map (fun p => (p.dest, p.val.toNat)) =
      [(.sw 2, 0x1FFFFFFFF)] ∧ (core0.writeSw 2 0x1FFFFFFFF).w.lc = 0xFFFFFFFF := by decide +kernel
theorem test_movMp : ((after (exec (.movMp { sample .movMp with d := 7 }) (withS 9 0 0))).core 0).q.pend.map Pend.dest = [.mp 7] := by
  decide +kernel
theorem test_mfmp : resultOf (exec (.mfmp { sample .mfmp with imm := 7 })
    (userWith fun k => { k with r := { k.r with mp := k.r.mp.set 7 77 } })) = some (77, 0, 0) := by decide +kernel

theorem test_witness_BreaksStopTheCore :
    (∀ t ∈ [AluTag.break, .syscall], Issues (.alu t { sample t with imm := 2 }) user) ∧
    (user.me.lateLanding = false ∧ user.me.lateBanks = []) ∧
    (let s := loading [loadEntry (.op .ld) (.s 3 false) 0 false .none 5]
     Issues (.alu .syscall { sample .syscall with imm := 4095 }) s ∧ s.me.lateLanding = true) :=
  ⟨all_issue (f := fun t => .alu t { sample t with imm := 2 }) (g := fun _ => user) (by decide +kernel), by decide +kernel,
   issues_of (by decide +kernel), by decide +kernel⟩

/-- R135, R349: syscall 2 stops the core with cause 0x14 and 2 in cdata, at the supervisor's entry. -/
theorem test_syscall :
    let k := (after (exec (.syscall { sample .syscall with imm := 2 }) (userWith fun k => k.modF fun f => { f with at_ := .after, pc := 0x60 }))).core 0
    k.w.cause.toNat % 64 = 0x14 ∧ k.w.cdata = 2 ∧ k.w.xpc = 0x60 ∧ k.w.pl = 1 := by decide +kernel
theorem test_break :
    let k := (after (exec (.break { sample .break with imm := 7 }) (userWith fun k => k.modF fun f => { f with at_ := .after }))).core 0
    k.w.cause.toNat % 64 = 0x13 ∧ k.w.cdata = 7 := by decide +kernel

theorem test_witness_TakingAStop :
    (user.core 0).w.pl = 0 ∧ (user.core 0).rg.opened = false ∧ user.ctxOf 0 = some placedCtx ∧ (user.core 0).w.carea ≠ 0 ∧
    user.d.areaOk placedCtx (user.core 0).w.carea.toNat Config.areaBytes = true ∧
    ((heldNext addBundle false).core 0).f.next ≠ none := by decide +kernel

theorem test_witness_SupervisorCauses :
    ((level 1).core 0).w.pl ≠ 0 ∧ ((level 1).core 0).supSelf = false ∧
    (let s := (level 2).modCore 0 fun k => { k with supSelf := true }
     (s.core 0).w.pl ≠ 0 ∧ (s.core 0).supSelf = true ∧ s.ctxOf 0 = some placedCtx) := by decide +kernel

/-! ### Supervisor operations -/

/-- The device with pages of 1 GiB at virtual 0 and 2^30 on the same physical addresses, with R, W and U, key slot 1, and
some bytes at an address, written under that key. -/
def devM (a : Nat) (bs : List Byte) : Dev :=
  let d := { dev0 with scrubG := [] }
  let d := d.rawWrite 0 0x40000000 (bytesOf 8 (pack pteLayout [1, 0, 0, 0, 0, 0, 0, 0, 0, 0x40001, 0]))
  let d := d.rawWrite 0 0x40001000 (bytesOf 8 (pack pteLayout [1, 1, 1, 0, 1, 3, 0, 1, 0, 0, 1])
    ++ bytesOf 8 (pack pteLayout [1, 1, 1, 0, 1, 3, 0, 1, 0, 0x40000, 1]))
  d.writeMem ⟨.random 0, some 0⟩ a bs
/-- A supervisor stream with those pages, and a and b in s3 and s4. -/
def supM (n : BitVec 2) (a b : W64) (at_ : Nat := 0) (bs : List Byte := []) : State :=
  sys { (core0.modW fun w => { w with pl := n }) with sup := true, r := { core0.r with s := (core0.r.s.set 3 a).set 4 b } } (devM at_ bs)

/-- The hold of an operation of R139 with its operands. -/
def supHoldOf (t : AluTag) (a b : W64) : Hold := ⟨.sup t a b, 4, 0x40, 0, 0, b, none, false, none⟩
/-- Core 0 at the end of a cycle with a hold, everything else of it done. -/
def holdingS (h : Hold) (s : State) : State :=
  s.modCore 0 fun k => (k.modF fun f => { f with at_ := .after, seq := 16 }).modQ fun q => { q with shold := some h }
/-- A supervisor stream in which an operation of R139 is about to act. -/
def supEnds (t : AluTag) (a b : W64) (at_ : Nat := 0) (bs : List Byte := []) : State := holdingS (supHoldOf t a b) (supM 1 0 0 at_ bs)
/-- The state in which it acts. -/
def supNotes (t : AluTag) (a b : W64) (at_ : Nat := 0) (bs : List Byte := []) : State :=
  let r := supRange t a b
  (supEnds t a b at_ bs).noteVa 0 0x40 r.1 r.2.1 r.2.2

/-- A read that is done. -/
def isOk {α ε : Type} : Except ε α → Bool
  | .ok _ => true
  | _ => false

theorem ok_of {α ε : Type} [DecidableEq α] {x : Except ε α} {y : α}
    (h : (match x with
      | .ok z => decide (z = y)
      | _ => false) = true) : x = .ok y := by
  split at h <;> simp_all

/-- An address that no page maps. -/
def noPage : W64 := 2 ^ 40

theorem test_witness_SupervisorStoreOperations :
    (∀ t ∈ [AluTag.cwtWr, .mpsWr, .cwtRd, .fmaskRd], Issues (.alu t (sample t)) (supM 1 511 64)) ∧
    (∀ t ∈ [AluTag.ctxSave, .ctxLoad, .bankSave, .bankLoad], Issues (.alu t (sample t)) (supM 1 0x100000 1)) ∧
    Issues (.alu .resume (sample .resume)) (supM 1 64 2) ∧
    (∀ x ∈ [(AluTag.cwtWr, (511 : W64), (64 : W64)), (.cwtWr, 511, noPage), (.mpsWr, 0x10FF, 64), (.mpsWr, 0xFF, noPage)],
      let s := supEnds x.1 x.2.1 x.2.2
      HoldOver 0 (supHoldOf x.1 x.2.1 x.2.2) s ∧ s.holdMet 0 (supHoldOf x.1 x.2.1 x.2.2) = true ∧
      isOk ((supNotes x.1 x.2.1 x.2.2).readVa 0 .read 2 x.2.2.toNat 32) = decide (x.2.2 = 64) ∧
      isOk ((supNotes x.1 x.2.1 x.2.2).readVa 0 .read 2 x.2.2.toNat 8) = decide (x.2.2 = 64)) ∧
    (supM 1 511 64).fnOf 0 = some 0 ∧ Issues (.alu .fmaskWr (sample .fmaskWr)) (supM 2 7 0x3FF) ∧
    (∀ i ∈ [Iface.unlocked, .locked, .run, .error], ((supM 2 7 0x3FF).modD fun d => d.modFn 7 fun x => { x with iface := i }).d.fns[(7 : FnId)].iface = i) := by
  refine ⟨all_issue (g := fun _ => supM 1 511 64) (by decide +kernel), all_issue (g := fun _ => supM 1 0x100000 1) (by decide +kernel), issues_of (by decide +kernel), ?_, by decide +kernel,
    issues_of (by decide +kernel), by decide +kernel⟩
  simp only [HoldOver]
  decide +kernel

theorem test_cwtWr :
    ((after (exec (.syHoldEnd 0) (supEnds .cwtWr 511 64 64 (bytesOf 32 0x07077101)))).core 0).m.cwt.get 511 = 0x07077101 := by decide +kernel
/-- R140: bit 12 of a selects the entries of the staging half. -/
theorem test_mpsWr :
    let k := (after (exec (.syHoldEnd 0) (supEnds .mpsWr 0x10FF 64 64 (bytesOf 8 0x1234)))).core 0
    k.mx.sent = [(255, 0x1234)] ∧ k.mx.smic = [] ∧ k.mx.ent = [] ∧ k.holds = [] := by decide +kernel
/-- R347: a fault of the read stops the supervisor stream at its entry for its own causes. -/
theorem test_cwtWr_faults :
    let k := (after (exec (.syHoldEnd 0) (supEnds .cwtWr 511 noPage))).core 0
    k.supSelf = true ∧ k.w.cause.toNat % 64 = 6 ∧ k.w.xpc = 0x40 ∧ k.holds = [] := by decide +kernel
theorem test_cwtRd : ((after (exec (.cwtRd (sample .cwtRd)) (supM 1 3 0x80))).core 0).q.st.map (fun e => (e.addr.toNat, e.size)) = [(0x80, 32)] := by
  decide +kernel
theorem test_resume : ((after (exec (.resume (sample .resume)) (supM 1 0x40 2))).core 0).holds.map Hold.kind = [.resume 0x40 2] := by
  decide +kernel
theorem test_fmaskRd : resultOf (exec (.fmaskRd (sample .fmaskRd)) ((supM 1 0 0).modD fun d => d.modFn 0 fun x => { x with mask := 0x2A })) =
    some (0x2A, 0, 0) := by decide +kernel
/-- R142: the mask changes at the end of the cycle. -/
theorem test_fmaskWr :
    let t := after (exec (.fmaskWr (sample .fmaskWr)) ((supM 2 7 0x3FF).modCore 0 fun k => k.modF fun f => { f with at_ := .after }))
    t.d.fns[(7 : FnId)].mask ≠ 0x3FF ∧ (after (exec (.resultWriteback 0) t)).d.fns[(7 : FnId)].mask = 0x3FF := by decide +kernel

/-- A context area at 0x100000 of context 0, its bulk parts in memory. -/
def areaWords : List Byte := List.replicate 0x88 0 ++ bytesOf 8 0 ++ List.replicate 0x10 0 ++ bytesOf 8 (2 ^ 42) ++ List.replicate 0x58 0

/-- The place that core 0 of a supervisor stream reads the area from. -/
def areaPlace : Place := ⟨0x100000, ⟨.random 0, some 0⟩, 1, 3, false, 2 ^ 30 - 0x100000⟩

theorem test_witness_BankAndAreaOperations :
    (∀ x ∈ [(AluTag.bankSave, (0x1000 : W64)), (.bankSave, noPage), (.bankLoad, 0x1000), (.bankLoad, noPage)],
      let u := supNotes x.1 x.2 0x8000
      HoldOver 0 (supHoldOf x.1 x.2 0x8000) (supEnds x.1 x.2 0x8000) ∧
      (x.1 = .bankSave → (bankSaveFrom u 0 (bankItems 0x8000) x.2.toNat).2.isNone = decide (x.2 = 0x1000)) ∧
      (x.1 = .bankLoad → (bankLoadFrom u 0 (bankItems 0x8000) x.2.toNat).2.isNone = decide (x.2 = 0x1000))) ∧
    (let s := supM 1 0 0
     isOk (s.readVa 0 .read 8 0x1000 4096) = true ∧ (bankLoadFrom s 0 [.inl 15] 0x1000).2 = none) := by
  simp only [HoldOver]
  decide +kernel

/-- A context area to load, another context's ctxid in its place, and an area over a break of the pages. -/
theorem test_witness_BankAndAreaOperations_load :
    let u := supNotes .ctxLoad 0x100000 0 0x100000 areaWords
    HoldOver 0 (supHoldOf .ctxLoad 0x100000 0) (supEnds .ctxLoad 0x100000 0 0x100000 areaWords) ∧
    HoldOver 0 (supHoldOf .ctxLoad noPage 0) (supEnds .ctxLoad noPage 0) ∧
    isOk ((supNotes .ctxLoad noPage 0).placesVa 0 .read 16 noPage.toNat Config.areaBytes) = false ∧
    u.placesVa 0 .read 16 0x100000 Config.areaBytes = .ok [(areaPlace, Config.areaBytes)] ∧
    u.d.gone areaPlace.pa Config.areaBytes = false ∧
    u.areaCtx 0 areaPlace.pa 0x100000 = some placedCtx ∧ u.ctxOf 0 = some placedCtx ∧
    runBreak areaPlace.pa [(areaPlace, Config.areaBytes)] 0x100000 = none ∧
    runBreak areaPlace.pa [(areaPlace, 4096), (areaPlace, Config.areaBytes - 4096)] 0x100000 = some 0x101000 ∧
    (supNotes .ctxLoad 0x100000 0 0x100000 (zeros 0x100)).areaCtx 0 areaPlace.pa 0x100000 = none := by
  refine ⟨?_, ?_, by decide +kernel, ok_of (by decide +kernel), ?_⟩
  · simp only [HoldOver]; decide +kernel
  · simp only [HoldOver]; decide +kernel
  · decide +kernel

/-- A device in which hardware has written page tables that map virtual 0 to a page of 1 GiB, the first whole one of the host range. -/
def tableDev : Dev :=
  ({ dev0 with scrubG := [] }.rawWrite 0 0x40000000 (bytesOf 8 (pack pteLayout [1, 0, 0, 0, 0, 0, 0, 0, 0, 0x40001, 0]))).rawWrite 0 0x40001000
    (bytesOf 8 (pack pteLayout [1, 1, 1, 0, 1, 3, 0, 1, 0, 477 * 2 ^ 18, 1]))
/-- That device with a memory. -/
def saveDev (m : Memory) : Dev := { dev0 with scrubG := [], mem := m, tags := tableDev.tags }
/-- Its page tables. -/
def saveTables : Memory := tableDev.mem
/-- A supervisor stream on it, about to save an area. -/
def saveState (m : Memory) : State := holdingS (supHoldOf .ctxSave 0x100000 0) (sys { (core0.modW fun w => { w with pl := 1 }) with sup := true } (saveDev m))
/-- The tables stand in a memory. -/
def HasTables (m : Memory) : Prop := ∀ a, a < 512000000000 → m.get a = saveTables.get a

/-- A byte of the tables as the context's text key reads it. -/
theorem save_byte (m : Memory) (a : Nat) (ha : a / 64 = 0x1000000 ∨ a / 64 = 0x1000040) :
    (saveDev m).byteAt ⟨.random 0, some 0⟩ a = m.get a := by
  have tg : (saveDev m).tag (a / 64) = ⟨.area 0, BitVec.allOnes 64, [], some 0⟩ := by
    rcases ha with e | e <;> rw [e]
    · show (saveDev []).tag 0x1000000 = _; decide +kernel
    · show (saveDev []).tag 0x1000040 = _; decide +kernel
  have ha2 : a < 2 ^ 31 := by omega
  have hd : ¬ Config.devBytes ≤ a := Nat.not_le.mpr (Nat.lt_of_lt_of_le ha2 (by decide))
  have hg : (BitVec.allOnes 64).getLsbD (a % 64) = true := by
    rw [BitVec.getLsbD_allOnes]; exact decide_eq_true (Nat.mod_lt _ (by decide))
  simp only [Dev.byteAt, if_neg hd, tg, UnitTag.opens, Dev.ownByte, hg, if_true, BEq.rfl]
  rfl

theorem save_textRead {m : Memory} (h : HasTables m) (a : Nat) (ha : a = 0x40000000 ∨ a = 0x40001000) :
    (saveDev m).textRead placedCtx a 8 = (saveDev saveTables).textRead placedCtx a 8 := by
  have k : ∀ m, (saveDev m).keyOf placedCtx.tkey = .random 0 := by
    intro m; show (saveDev []).keyOf placedCtx.tkey = _; decide +kernel
  simp only [Dev.textRead, Dev.readMem, k]
  refine List.map_congr_left fun x hx => ?_
  obtain ⟨i, hi, rfl⟩ := List.mem_map.mp hx
  have hi := List.mem_range.mp hi
  have hu : (a + i) / 64 = 0x1000000 ∨ (a + i) / 64 = 0x1000040 := by omega
  rw [show placedCtx.no = 0 from rfl, save_byte m _ hu, save_byte saveTables _ hu]
  exact h (a + i) (by omega)

/-- What an access to the area's page reaches. -/
def savePlace (va : Nat) : Place := ⟨477 * 2 ^ 30 + va, ⟨.random 0, some 0⟩, 1, 3, false, 2 ^ 30 - va⟩

theorem save_walk {m : Memory} (h : HasTables m) (va : Nat) (hv : va < 2 ^ 30) :
    (saveDev m).walk placedCtx va walkLevels 0x40000000 = some ⟨477 * 2 ^ 30, 30, true, true, false, true, 3, false, 1⟩ := by
  have e1 : field va 39 9 = 0 := by simp only [field]; omega
  have e2 : field va 30 9 = 0 := by simp only [field]; omega
  have r1 : unpack pteLayout (natOf ((saveDev m).textRead placedCtx 0x40000000 8)) = [1, 0, 0, 0, 0, 0, 0, 0, 0, 0x40001, 0] := by
    rw [save_textRead h _ (by decide)]; decide +kernel
  have r2 : unpack pteLayout (natOf ((saveDev m).textRead placedCtx 0x40001000 8)) = [1, 1, 1, 0, 1, 3, 0, 1, 0, 477 * 2 ^ 18, 1] := by
    rw [save_textRead h _ (by decide)]; decide +kernel
  have t1 : (saveDev m).tableOk placedCtx 0x40000000 = true := by
    show (saveDev []).tableOk placedCtx 0x40000000 = true; decide +kernel
  have t2 : (saveDev m).tableOk placedCtx 0x40001000 = true := by
    show (saveDev []).tableOk placedCtx 0x40001000 = true; decide +kernel
  unfold walkLevels
  simp only [Dev.walk, e1, e2, Nat.mul_zero, Nat.add_zero, t1, r1, Nat.reduceMul, t2, r2]
  rfl

theorem save_xlate {m : Memory} (h : HasTables m) (va : Nat) (hv : va < 2 ^ 30) (acc : Acc) (ha : acc = .read ∨ acc = .write) :
    (saveState m).xlate 0 va acc = .ok (savePlace va) := by
  have c0 : (saveState m).ctxOf 0 = some placedCtx := by
    show ((saveDev []).ctx ((saveState []).core 0).w.ctxid) = some placedCtx; decide +kernel
  have c1 : (((saveState m).core 0).w.pl == 0) = false := by
    show (((saveState []).core 0).w.pl == 0) = false; decide +kernel
  have l : (saveDev m).leafOk placedCtx ⟨477 * 2 ^ 30, 30, true, true, false, true, 3, false, 1⟩ = true := by
    show (saveDev []).leafOk placedCtx ⟨477 * 2 ^ 30, 30, true, true, false, true, 3, false, 1⟩ = true; decide +kernel
  have k : (saveDev m).keyOf 1 = .random 0 := by
    show (saveDev []).keyOf 1 = .random 0; decide +kernel
  have n : placedCtx.no = 0 := rfl
  have ptb : placedCtx.ptb.toNat = 0x40000000 := by decide +kernel
  have hd : (saveState m).d = saveDev m := rfl
  have hm : va % 2 ^ 30 = va := Nat.mod_eq_of_lt hv
  have h48 : ¬ 2 ^ 48 ≤ va := by omega
  have hp : ¬ 477 * 2 ^ 30 + va < Config.devBytes := by simp only [Config.devBytes]; omega
  have g : (saveDev m).walkGone placedCtx va = false := rfl
  simp only [State.xlate, g, c0, c1, hd, Dev.translate, if_neg h48, ptb, save_walk h va hv]
  rcases ha with rfl | rfl <;>
    simp only [l, hm, if_neg hp, k, n, savePlace, Bool.not_true, Bool.not_false, Bool.and_self, Bool.or_self,
      Bool.false_eq_true, if_false]

theorem save_pending (m : Memory) (pa : Nat) : (saveDev m).pending pa = false := rfl

theorem save_settle (m : Memory) (pa n : Nat) : (saveDev m).settlePages pa n = saveDev m := by
  unfold Dev.settlePages
  generalize Dev.pagesOf pa n = ps
  induction ps with
  | nil => rfl
  | cons p ps ih => rw [List.foldl_cons, save_pending]; exact ih

theorem save_gone (m : Memory) (pa n : Nat) : (saveState m).d.gone pa n = false := by
  show (Dev.pagesOf pa n).any (fun pg => ([] : NatSet).contains pg) = false
  simp

theorem save_answers (m : Memory) (pa n : Nat) : (saveState m).d.hostFails pa n = false := by
  show (decide (Config.devBytes ≤ pa) && ([] : NatSet).any _) = false
  simp

theorem save_write (m : Memory) (va : Nat) (k : Opener) (bs : List Byte) (h : bs ≠ []) :
    (saveDev m).writeMem k (477 * 2 ^ 30 + va) bs = saveDev (m.write (477 * 2 ^ 30 + va) bs) := by
  have hp : Config.devBytes ≤ 477 * 2 ^ 30 + va := by simp only [Config.devBytes]; omega
  simp only [Dev.writeMem, if_neg h, save_settle, if_pos hp]; rfl

theorem save_text (m : Memory) (p n : Nat) : (saveState m).textWritten [(p, n)] = saveState m := by
  have e : ∀ f : FnId, (saveState m).d.fns[f].svec.toNat + (saveState m).d.fns[f].stlen.toNat = 0 := by
    intro f
    show (saveDev []).fns[f].svec.toNat + (saveDev []).fns[f].stlen.toNat = 0
    revert f; decide +kernel
  unfold State.textWritten
  generalize List.finRange 8 = fs
  induction fs with
  | nil => rfl
  | cons f fs ih =>
    rw [List.foldl_cons]
    refine Eq.trans (congrArg (fun s => List.foldl _ s fs) ?_) ih
    simp only [List.any_cons, List.any_nil, e f, Nat.not_lt_zero, decide_false, Bool.false_and, Bool.or_false, Bool.false_eq_true, if_false]

/-- Bytes of the area's page are written in one piece. -/
theorem save_putVa {m : Memory} (h : HasTables m) (va : Nat) (b : Byte) (bs : List Byte) (hv : va + bs.length < 2 ^ 30) :
    (saveState m).putVa 0 16 va (b :: bs) = (saveState (m.write (477 * 2 ^ 30 + va) (b :: bs)), none) := by
  have hn : min (bs.length + 1) (2 ^ 30 - va) = bs.length + 1 := by omega
  have x := save_xlate h va (by omega) .write (.inr rfl)
  have w : (saveState m).modD (fun d => d.writeMem ⟨.random 0, some 0⟩ (477 * 2 ^ 30 + va) (b :: bs)) =
      saveState (m.write (477 * 2 ^ 30 + va) (b :: bs)) := by
    show { saveState m with d := (saveDev m).writeMem ⟨.random 0, some 0⟩ (477 * 2 ^ 30 + va) (b :: bs) } = _
    rw [save_write _ _ _ _ (by simp)]; rfl
  have t : (b :: bs).take (bs.length + 1) = b :: bs := List.take_of_length_le (by simp)
  have u : (b :: bs).drop (bs.length + 1) = [] := List.drop_eq_nil_of_le (by simp)
  rw [State.putVa, x]
  simp only [savePlace, hn, t, u, w, save_text, save_gone, Bool.false_eq_true, if_false]
  rfl

theorem save_tables {m : Memory} (h : HasTables m) (va : Nat) (bs : List Byte) : HasTables (m.write (477 * 2 ^ 30 + va) bs) := by
  intro a ha
  show Sparse.get (Sparse.write m (477 * 2 ^ 30 + va) bs) a = _
  rw [Sparse.get_write, if_neg (by omega)]
  exact h a ha

theorem save_putParts : ∀ (ps : List (Nat × List Byte)) {m : Memory}, HasTables m → (∀ p ∈ ps, p.1 + p.2.length < 2 ^ 30) →
    ∃ m', (saveState m).putParts 0 ps = (saveState m', none)
  | [], m, _, _ => ⟨m, rfl⟩
  | (a, []) :: ps, m, h, hp => by
    obtain ⟨m', e⟩ := save_putParts ps h fun p q => hp p (List.mem_cons_of_mem _ q)
    exact ⟨m', by rw [State.putParts]; exact e⟩
  | (a, b :: bs) :: ps, m, h, hp => by
    have l := hp (a, b :: bs) List.mem_cons_self
    simp only [List.length_cons] at l
    obtain ⟨m', e⟩ := save_putParts ps (save_tables h a (b :: bs)) fun p q => hp p (List.mem_cons_of_mem _ q)
    exact ⟨m', by rw [State.putParts, save_putVa h a b bs (by omega)]; exact e⟩

theorem length_sparse_read {w : Nat} (m : Sparse w) : ∀ n a, (m.read a n).length = n
  | 0, _ => rfl
  | n + 1, a => by rw [Sparse.read, List.length_cons, length_sparse_read m n]

theorem length_flatten_bytes {α : Type} (f : α → List Byte) (n : Nat) (h : ∀ x, (f x).length = n) : ∀ l : List α, (l.map f).flatten.length = n * l.length
  | [] => rfl
  | x :: l => by
    rw [List.map_cons, List.flatten_cons, List.length_append, h, length_flatten_bytes f n h l, List.length_cons]; rw [Nat.mul_succ, Nat.add_comm]

/-- Each part of an area's bulk lies in the area. -/
theorem bulkParts_fit (k : Core) : ∀ p ∈ k.bulkParts, p.1 + p.2.length ≤ Config.areaBytes := by
  intro p hp
  simp only [Core.bulkParts, List.mem_cons, List.not_mem_nil, or_false] at hp
  rcases hp with rfl | rfl | rfl <;>
    simp only [List.length_append, length_flatten_bytes _ 32 (fun _ => length_bytesOf 32 _), length_flatten_bytes _ 8 (fun _ => length_bytesOf 8 _),
      length_flatten_bytes _ 16 (fun _ => length_bytesOf 16 _),
      length_flatten_bytes (fun p => wordBytes (Core.phaseWord p)) 8 (fun _ => length_bytesOf 8 _),
      length_flatten_bytes Core.phaseRanges 32 (fun _ => length_bytesOf 32 _), length_sparse_read, Vector.length_toList, Config.areaBytes, Config.spadBytes,
      zeros, List.length_replicate, lineBits, List.length_map, List.length_range] <;> omega

/-- R354: a save that reaches its end: every part of the bulk, and the word with BULK, is written. -/
theorem test_witness_BankAndAreaOperations_save :
    let s := saveState saveTables
    let u := s.noteVa 0 0x40 .write 0x100000 Config.areaBytes
    HoldOver 0 (supHoldOf .ctxSave 0x100000 0) s ∧
      (∃ bs, u.readVa 0 .read 2 (0x100000 + 0xA0) 8 = .ok bs) ∧
      ∀ bs, bs.length = 8 → ∃ t, u.putParts 0 (((u.core 0).bulkParts.map fun p => (0x100000 + p.1, p.2)) ++ [(0x100000 + 0xA0, bs)]) = (t, none) := by
  have e : (saveState saveTables).noteVa 0 0x40 .write 0x100000 Config.areaBytes = saveState saveTables := by
    have p : (saveState saveTables).placesVa 0 .write 16 0x100000 Config.areaBytes = .ok [(savePlace 0x100000, Config.areaBytes)] :=
      ok_of (by decide +kernel)
    have n : (saveState saveTables).d.anyPending (savePlace 0x100000).pa Config.areaBytes = false := by decide +kernel
    have h : Config.devBytes ≤ (savePlace 0x100000).pa := by decide
    rw [State.noteVa, p]
    simp only [State.noteScrub, List.any_cons, List.any_nil, n, Bool.or_false, Bool.false_eq_true, if_false, State.charge, List.map_cons, List.map_nil,
      List.foldl_cons, List.foldl_nil, Dev.ask, h, or_true, if_true, State.modD]
    exact congrArg (fun d => ({ saveState saveTables with d := d } : State)) (save_settle saveTables _ _)
  simp only [e]
  refine ⟨by simp only [HoldOver]; decide +kernel, ?_, fun bs hb => ?_⟩
  · exact ⟨(saveState saveTables).d.readMem ⟨.random 0, some 0⟩ (477 * 2 ^ 30 + 0x1000A0) 8, by
      simp [State.readVa, save_xlate (fun _ _ => rfl) 0x1000A0 (by decide) .read (.inl rfl), savePlace, save_gone, save_answers, bind, Except.bind, pure, Except.pure]⟩
  · obtain ⟨m, e⟩ := save_putParts ((((saveState saveTables).core 0).bulkParts.map fun p => (0x100000 + p.1, p.2)) ++ [(0x100000 + 0xA0, bs)])
      (fun _ _ => rfl : HasTables saveTables) (by
        intro p hp
        rcases List.mem_append.1 hp with hp | hp
        · obtain ⟨q, hq, rfl⟩ := List.mem_map.1 hp
          have := bulkParts_fit _ q hq
          simp only [Config.areaBytes] at this ⊢; omega
        · obtain rfl := List.mem_singleton.1 hp
          simp only [hb]; decide)
    exact ⟨_, e⟩

/-- R354: a save and a load of an area that no page maps fault. -/
theorem test_witness_BankAndAreaOperations_faults :
    HoldOver 0 (supHoldOf .ctxSave 0x3FFC0000 0) (supEnds .ctxSave 0x3FFC0000 0) ∧
    isOk ((supNotes .ctxSave 0x3FFC0000 0).readVa 0 .read 2 (0x3FFC0000 + 0xA0) 8) = true := by
  refine ⟨?_, by decide +kernel⟩
  simp only [HoldOver]; decide +kernel

/-- R141: bank.load reads bank 15 row by row, row 0 first. -/
theorem test_bankLoad :
    let m := ((after (exec (.syHoldEnd 0) (supEnds .bankLoad 0x1000 0x8000 0x1000 (bytesOf 128 7 ++ bytesOf 128 9 ++ zeros 3840)))).core 0).m
    m.bank.get 480 = 7 ∧ m.bank.get 481 = 9 := by decide +kernel

/-! ### The vector unit -/

theorem test_witness_VectorOperationResults :
    (∀ r ∈ vectorRows, Issues (.alu r.2.1 (sample r.2.1)) user) ∧
    (∀ t ∈ [AluTag.vext, .vrow, .vwrow], Issues (.alu t (sample t)) user) ∧ (sample .vrow).a = .reg 3 ∧
    Issues (.alu .vadd { sample .vadd with unit := .vb, msk := 4, w := 2, nowb := true }) user :=
  ⟨rows_issue (by decide +kernel), rows_issue (by decide +kernel), by decide +kernel, issues_of (by decide +kernel)⟩

theorem test_witness_VectorCompareResults :
    (∀ r ∈ vectorCompareRows, Issues (.alu r.2.1 (sample r.2.1)) user) ∧
    (∀ f ∈ [Fmt.i8, .f32, .i64], 8 ∣ (onInt .vcmpEq f).wE .vcmpEq ∧ 0 < (onInt .vcmpEq f).wE .vcmpEq) :=
  ⟨rows_issue (by decide +kernel), by decide +kernel⟩

theorem test_witness_VectorLanes :
    ∀ t ∈ [AluTag.vadd, .vmul, .vfma], (sample t).cw.post.isReduce = false ∧ (sample t).cw.fd ≠ .none := by decide +kernel

/-- Lanes of 32 bits. -/
def lanes32 (xs : List Nat) : W1024 := BitVec.ofNat 1024 (xs.foldr (fun x n => x + n * 2 ^ 32) 0)

/-- R99: 1.5 + 2.25 = 3.75 and 1 + 2^−24 rounds to 1 in f32. -/
theorem test_vadd : resultOf (exec (.vadd (sample .vadd)) (withV (lanes32 [0x3FC00000, 0x3F800000]) (lanes32 [0x40100000, 0x33800000]) 0)) =
    some (0x3F80000040700000, 0, 3) := by decide +kernel
theorem test_vsub : resultOf (exec (.vsub (sample .vsub)) (withV (lanes32 [0x3F800000]) (lanes32 [0x40000000]) 0)) = some (0xBF800000, 0, 3) := by
  decide +kernel
theorem test_vmul : resultOf (exec (.vmul (sample .vmul)) (withV (lanes32 [0x3FC00000]) (lanes32 [0xC0000000]) 0)) = some (0xC0400000, 0, 3) := by
  decide +kernel
theorem test_vadd_int : resultOf (exec (.vadd (onInt .vadd .i8 .satf)) (withV 0x7F7F 0x0101 0)) = some (0x7F7F, flagSat, 1) := by decide +kernel
theorem test_vmulh : resultOf (exec (.vmulh (onInt .vmulh .n16)) (withV 0x8000 0x0006 0)) = some (3, 0, 2) := by decide +kernel
theorem test_vmin : resultOf (exec (.vmin (onInt .vmin .i8)) (withV 0x01FF 0x0201 0)) = some (0x01FF, 0, 1) := by decide +kernel
theorem test_vmax : resultOf (exec (.vmax (onInt .vmax .i8)) (withV 0x01FF 0x0201 0)) = some (0x0201, 0, 1) := by decide +kernel
theorem test_vmov : resultOf (exec (.vmov (sample .vmov)) (withV 0x7FC01234 0 0)) = some (0x7FC01234, 0, 1) := by decide +kernel
theorem test_vand : resultOf (exec (.vand (onInt .vand .n8)) (withV 0xF00F 0xFF05 0)) = some (0xF005, 0, 1) := by decide +kernel
theorem test_vor : resultOf (exec (.vor (onInt .vor .n8)) (withV 0xF00F 0x0F50 0)) = some (0xFF5F, 0, 1) := by decide +kernel
theorem test_vxor : resultOf (exec (.vxor (onInt .vxor .n8)) (withV 0xF00F 0xFF05 0)) = some (0x0F0A, 0, 1) := by decide +kernel
theorem test_vandn : resultOf (exec (.vandn (onInt .vandn .n8)) (withV 0xFF0F 0x0F05 0)) = some (0xF00A, 0, 1) := by decide +kernel
theorem test_vshl : resultOf (exec (.vshl (onInt .vshl .n8)) (withV 0x0181 0x0301 0)) = some (0x0802, 0, 1) := by decide +kernel
theorem test_vshr : resultOf (exec (.vshr (onInt .vshr .i8)) (withV 0x80 0x03 0)) = some (0xF0, 0, 1) := by decide +kernel
theorem test_vfma : resultOf (exec (.vfma (sample .vfma)) (withV (lanes32 [0x40000000]) (lanes32 [0x40400000]) (lanes32 [0x3F800000]))) =
    some (0x40E00000, 0, 3) := by decide +kernel
theorem test_vfms : resultOf (exec (.vfms (sample .vfms)) (withV (lanes32 [0x40000000]) (lanes32 [0x40400000]) (lanes32 [0x3F800000]))) =
    some (0x40A00000, 0, 3) := by decide +kernel
theorem test_vclz : (resultOf (exec (.vclz (onInt .vclz .n8)) (withV (BitVec.allOnes 1024 <<< 8) 0 0))) = some (8, 0, 1) := by decide +kernel
theorem test_vpopc : resultOf (exec (.vpopc (onInt .vpopc .n8)) (withV 0xFF03 0 0)) = some (0x0802, 0, 1) := by decide +kernel
/-- R96: 2^8 in f32 is 0x4380 in bf16, at lanes of the source's width. -/
theorem test_vcvt : resultOf (exec (.vcvt { sample .vcvt with cw := { CtlWord.plain with fa := .f32, fd := .i32 } })
    (withV (lanes32 [0x43800000, 0xC0200000]) 0 0)) = some (256 + 2 ^ 32 * (2 ^ 32 - 2), 0, 2) := by decide +kernel
theorem test_vsel : resultOf (exec (.vsel { sample .vsel with c := .reg 0 }) (withV 5 9 0)) = some (5, 0, 1) := by decide +kernel
theorem test_vcmpEq : resultOf (exec (.vcmpEq (sample .vcmpEq)) (withV (lanes32 [0, 1, 2, 3, 4, 5, 6, 7]) (lanes32 [0x80000000]) 0)) =
    some (0xF, 0, 3) := by decide +kernel
theorem test_vcmpUn : resultOf (exec (.vcmpUn (sample .vcmpUn)) (withV (lanes32 [0, 0x7FC00000]) 0 0)) = some (0xF0, 0, 3) := by decide +kernel
/-- R154: result chunk 0 is chunk 1 of A, the others are chunk 0. -/
theorem test_vperm : resultOf (exec (.vperm { sample .vperm with cw := { (sample .vperm).cw with perm := 0x1 } }) (withV (lanes32 [5, 6, 7]) 0 0)) =
    some ((lanes32 [7, 0, 5, 6, 5, 6, 5, 6]).toNat, 0, 1) := by decide +kernel
theorem test_vbcast : resultOf (exec (.vbcast (sample .vbcast)) (withS 0x3F800000 0 0)) =
    some ((lanes32 (List.replicate 8 0x3F800000)).toNat, 0, 1) := by decide +kernel
theorem test_vext : resultOf (exec (.vext (sample .vext)) (userWith fun k => { k with r := { k.r with
    s := k.r.s.set 4 1, v := k.r.v.set 3 (lanes32 [5, 6]) } })) = some (6, 0, 1) := by decide +kernel
theorem test_vrow : resultOf (exec (.vrow (sample .vrow)) (userWith fun k =>
    { k.modM fun m => { m with bank := [(32 * 3 + 2, 77)] } with r := { k.r with s := k.r.s.set 4 2 } })) = some (77, 0, 1) := by decide +kernel
theorem test_vwrow :
    let k := (after (exec (.vwrow (sample .vwrow)) (userWith fun k =>
      { k with r := { k.r with s := k.r.s.set 3 31, v := k.r.v.set 4 9 } }))).core 0
    k.q.pend.map (fun p => (p.dest, p.val.toNat, p.due)) = [(.bank 2 31, 9, 1)] ∧ k.w.aown.getLsbD 18 = true := by decide +kernel
theorem test_vredsum : resultOf (exec (.vredsum (sample .vredsum)) (withV (lanes32 (List.replicate 8 0x3F800000)) 0 0)) =
    some (0x41000000, 0, 5) := by decide +kernel
theorem test_vredmax : resultOf (exec (.vredmax (onInt .vredmax .i8)) (withV 0xFF05 0 0)) = some (5, 0, 5) := by decide +kernel
theorem test_vrcp : resultOf (exec (.vrcp (sample .vrcp)) (withV (lanes32 (List.replicate 8 0x40000000)) 0 0)) =
    some ((lanes32 (List.replicate 8 0x3F000000)).toNat, 0, 11) := by decide +kernel
theorem test_vsqrt : resultOf (exec (.vsqrt (sample .vsqrt)) (withV (lanes32 [0x40800000, 0xBF800000]) 0 0)) =
    some (0x7FC0000040000000, 0, 11) := by decide +kernel
theorem test_vrsqrt : resultOf (exec (.vrsqrt (sample .vrsqrt)) (withV (lanes32 (List.replicate 8 0x40800000)) 0 0)) =
    some ((lanes32 (List.replicate 8 0x3F000000)).toNat, 0, 11) := by decide +kernel
theorem test_vexp2 : resultOf (exec (.vexp2 (sample .vexp2)) (withV (lanes32 (List.replicate 8 0x40400000)) 0 0)) =
    some ((lanes32 (List.replicate 8 0x41000000)).toNat, 0, 11) := by decide +kernel
theorem test_vlog2 : resultOf (exec (.vlog2 (sample .vlog2)) (withV (lanes32 (List.replicate 8 0x41000000)) 0 0)) =
    some ((lanes32 (List.replicate 8 0x40400000)).toNat, 0, 11) := by decide +kernel
theorem test_vphmul : resultOf (exec (.vphmul { sample .vphmul with cw := { CtlWord.plain with fa := .ph8, fb := .ph8, fd := .ph8 } })
    (withV 0 0 0)) = some (0, 0, 1) := by decide +kernel

/-! ### The matrix unit -/

/-- A matrix call in its queue: banks from 4, latch 1, at micro-word 0 of a routine whose compute part begins at 9. -/
def callAt (upc : Nat) (comp : Bool) (lm : LatchMode := .loadUse) : MxCall where
  seq := 5
  ipc := 0x40
  body := 0
  ent := { routineOf 0 with cpc := 9 }
  sl := 1
  lm := lm
  rbk := 4
  acc := false
  par := (Vector.replicate 8 0).set 3 64
  comp := comp
  upc := upc
  row := 0
  touch := 0
  rows := []
  part := []
  elt := 0
  t0 := none
  rowFault := none
  wait := 0
  fault := none
  fin := false
  landDue := 0
  banks := 0
  arr := none
  hnd := false
  feat6 := true

/-- Core 0 in an array cycle with calls and a micro-word at 0. -/
def arrayOf (u : Micro) (ms : List MxCall) : State :=
  userWith fun k => (k.modF fun f => { f with at_ := .after }).modMx fun x => { x with q := ms, mic := [(0, encodeMicro u)] }

/-- The array stands at a micro-word of its head call. -/
def onArray (u : Micro) (m : MxCall) (s : State) : Bool :=
  decide ((s.core 0).headAt u = some m) && (s.core 0).active && State.arrayTime (s.core 0) && decide ((s.core 0).mx.free ≤ (s.core 0).mx.acyc)

theorem on_array {u : Micro} {s : State} {m : MxCall} (h : onArray u m s = true) : OnArray 0 u s m := by
  simp only [onArray, Bool.and_eq_true, decide_eq_true_eq] at h
  exact ⟨h.1.1.1, h.1.1.2, h.1.2, h.2⟩

theorem all_array {α : Type} {l : List α} {u : α → Micro} {m : α → MxCall}
    (h : (l.all fun x => onArray (u x) (m x) (arrayOf (u x) [m x])) = true) : ∀ x ∈ l, OnArray 0 (u x) (arrayOf (u x) [m x]) (m x) :=
  fun x hx => on_array (List.all_eq_true.mp h x hx)

/-- Core 0 with routine 12 in its matrix program store: parts at 0 and 9, each a mu.end, and four banks. -/
def userMx : State := userWith fun k => k.modMx fun x => { x with
  ent := [(12, BitVec.ofNat 64 (pack routineLayout [0, 1, 9, 1, 0, 1, 0xF, 0]))], mic := [(0, 0x3F), (9, 0x3F)] }
/-- A matrix call of routine 12 that loads and uses latch 0, with LAND 80. -/
def mxOp (lm : LatchMode) : MxOp := ⟨12, 0, lm, 4, false, 80, gd0, some (2, 0x80)⟩

theorem test_witness_MatrixCallsEnterTheQueue :
    (∀ lm ∈ [LatchMode.use, .loadUse], Issues (.mx (mxOp lm)) userMx) ∧
    Issues (.mx ⟨12, 3, .loadOnly, 0, false, 4095, gd0, none⟩) userMx ∧ userMx.me.w.mrow.getLsbD 40 = false ∧
    (let s := userMx.modMe fun k => k.modW fun w => { w with mrow := 0x10000000803 }
     Issues (.mx (mxOp .use)) s ∧ s.me.w.mrow.getLsbD 40 = true) :=
  ⟨all_issue (f := fun lm => .mx (mxOp lm)) (g := fun _ => userMx) (by decide +kernel), issues_of (by decide +kernel), by decide +kernel,
   issues_of (by decide +kernel), by decide +kernel⟩

/-- R170: OVR 0x80 stands in the captured copy of mp2, and the front copy is as it was. -/
theorem test_mxCall :
    let k := (after (exec (.mxCall (mxOp .loadUse)) userMx)).core 0
    k.mx.q.map (fun m => (m.par[2].toNat, m.rbk, m.upc)) = [(0x80, 4, 0)] ∧ k.r.mp[2] = 0 := by decide +kernel

theorem test_witness_ArrayControlWords :
    (∀ u ∈ [(⟨7, none, 0xFFFFFFFF⟩ : MuAdv), ⟨3, some 3, 0⟩], OnArray 0 (.adv u) (arrayOf (.adv u) [callAt 0 false]) (callAt 0 false)) ∧
    (∀ u ∈ [(⟨3, 2047⟩ : MuLoop), ⟨0, 1⟩], OnArray 0 (.loop u) (arrayOf (.loop u) [callAt 0 false]) (callAt 0 false)) ∧
    ((callAt 0 false).par[0] = 0 ∧ (callAt 0 false).par[3] ≠ 0) ∧
    (∀ m ∈ [callAt 0 false, callAt 0 true, callAt 0 false .loadOnly], OnArray 0 .end_ (arrayOf .end_ [m]) m) :=
  ⟨all_array (u := .adv) (m := fun _ => callAt 0 false) (by decide +kernel), all_array (u := .loop) (m := fun _ => callAt 0 false) (by decide +kernel),
   by decide +kernel, all_array (u := fun _ => .end_) (m := id) (by decide +kernel)⟩

/-- R184: mu.adv adds −1 to mp3; mu.loop counts it down and jumps. -/
theorem test_muAdv :
    let u : MuAdv := ⟨3, none, 0xFFFFFFFF⟩
    ((after (exec (.muAdv 0 u) (arrayOf (.adv u) [callAt 0 false]))).core 0).mx.q.map (fun m => (m.par[3].toNat, m.upc)) = [(63, 1)] := by decide +kernel
theorem test_muLoop :
    let u : MuLoop := ⟨3, 7⟩
    ((after (exec (.muLoop 0 u) (arrayOf (.loop u) [callAt 0 false]))).core 0).mx.q.map (fun m => (m.par[3].toNat, m.upc)) = [(63, 7)] := by decide +kernel
theorem test_muLoop_ends :
    let u : MuLoop := ⟨0, 7⟩
    ((after (exec (.muLoop 0 u) (arrayOf (.loop u) [callAt 0 false]))).core 0).mx.q.map (fun m => (m.par[0].toNat, m.upc)) = [(0, 1)] := by decide +kernel
theorem test_muEnd :
    ((after (exec (.muEnd 0) (arrayOf .end_ [callAt 0 false]))).core 0).mx.q.map (fun m => (m.comp, m.upc, m.fin)) = [(true, 9, false)] := by decide +kernel

/-- A latch load of bf16q rows from the scratchpad: 32 rows of 64 bytes. -/
def latLoad (sp : BitVec 3) : MuLat := ⟨true, .loc, 0, sp, 2⟩
/-- A call with a row of a latch load to go. -/
def lastRow (r : Nat) : MxCall := { callAt 0 false with row := r }

/-- Its last row is there. -/
def fetched (x : BitVec 2048) : MxCall := { lastRow 31 with rows := [x] }

theorem test_witness_ArrayControlAndLatchLoads :
    OnArray 0 (.lat (latLoad 3)) (arrayOf (.lat (latLoad 3)) [fetched 5]) (fetched 5) ∧
    (fetched 5).rowFault = none ∧ (latOperand (latLoad 3)).rows ≤ (fetched 5).row + (fetched 5).rows.length ∧
    (let m := { fetched 5 with row := 30, rowFault := some ⟨.align, 0, 4⟩ }
     OnArray 0 (.lat (latLoad 3)) (arrayOf (.lat (latLoad 3)) [m]) m ∧ m.rowFault ≠ none) :=
  ⟨on_array (by decide +kernel), by decide +kernel, by decide +kernel, on_array (by decide +kernel), by decide +kernel⟩

theorem test_muLat :
    let s := arrayOf (.lat (latLoad 3)) [fetched (7 + 8 * 2 ^ (8 * 63))]
    ((after (exec (.muLat 0 (latLoad 3)) s)).core 0).m.sl = [(16384 + 8192 + 31 * 64, 7), (16384 + 8192 + 31 * 64 + 63, 8)] ∧
    ((after (exec (.muLat 0 (latLoad 3)) s)).core 0).mx.q.map (fun m => (m.upc, m.row)) = [(1, 0)] := by decide +kernel

/-- A block operation of each shape on latch half 1, accumulating nothing. -/
def mma : MuMma := ⟨0, true, 0, .loc, 0, 3, false, 0, false, false⟩
/-- A call with one fetched row of A. -/
def withRow (r : Nat) : MxCall := { callAt 0 true with row := r, rows := [1] }

theorem test_witness_BlockOperations :
    (∀ k ∈ [MmaKind.e4m3, .bf16, .bf16q, .i8, .ph], OnArray 0 (.mma k mma) (arrayOf (.mma k mma) [withRow 0]) (withRow 0)) ∧
    (let s := arrayOf (.mma .ph mma) [withRow 0]
     ∀ p ∈ (s.core 0).q.slb ++ (s.core 0).q.pend, p.seq < (withRow 0).seq → ∀ (b : Fin 16) (r : Fin 32), p.dest = .bank b r →
       32 * b.val + r.val ∉ mmaRows .ph (withRow 0) mma 0) ∧
    (∀ k ∈ [MmaKind.e4m3, .bf16, .bf16q, .i8, .ph], (withRow 31).row < (mmaOperand mma k).rows) ∧ (mmaOperand mma .ph).rows ≤ (withRow 31).row + 1 ∧
    (withRow 0).row + 1 < (mmaOperand mma .ph).rows :=
  ⟨all_array (u := fun k => .mma k mma) (m := fun _ => withRow 0) (by decide +kernel),
   fun p h => absurd (show p ∈ ([] : List Pend) from h) (by simp), by decide +kernel, by decide +kernel, by decide +kernel⟩

/-- R104, R190: one column of i8 with a unsigned and b unsigned, on an accumulator of 10: 3·5 + 255·2 + 10. -/
theorem test_muMmaI8 : mmaElt .i8 mma [(3, 5), (255, 2)] (some 10) = 535 := by decide +kernel
/-- The same with b signed: 3·5 + 255·(−2). -/
theorem test_muMmaI8_signed : mmaElt .i8 { mma with sgb := true } [(3, 5), (255, 254)] none = 2 ^ 32 - 495 := by decide +kernel
/-- R102: 1 · 2 + 3 · 0.5 = 3.5 in bf16, in f32. -/
theorem test_muMmaBf16 : mmaElt .bf16 mma [(0x3F80, 0x4000), (0x4040, 0x3F00)] none = 0x40600000 := by decide +kernel

/-- A drain of f32 rows to the scratchpad. -/
def drainOp : MuDrain := ⟨.f32, .loc, 0, 3, 0, true⟩

/-- A call with a row of a drain at an element. -/
def drainAtElt (r e : Nat) : MxCall := { lastRow r with elt := e }

theorem test_witness_Drains :
    (∀ x ∈ [(0, 0), (7, 63), (31, 31)], OnArray 0 (.drain drainOp) (arrayOf (.drain drainOp) [drainAtElt x.1 x.2]) (drainAtElt x.1 x.2)) ∧
    (let s := arrayOf (.drain drainOp) [lastRow 0]
     s.ordered 0 5 5 [] false false = true ∧ drainFault s 0 (lastRow 0) drainOp 0 = none ∧
     drainFault s 0 { lastRow 0 with par := (lastRow 0).par.set 0 4 } drainOp 4 ≠ none ∧
     (match s.put 0 (some 3) 0x40 .loc 0 [1, 2] false with
      | .ok t => decide ((t.core 0).mx = (s.core 0).mx)
      | _ => false) = true ∧
     drainFault s 0 (drainAtElt 0 5) drainOp 0x60000 = none ∧
     (match s.put 0 (some 3) 0x40 .loc 0x60000 [1, 2] false with
      | .bad _ => true
      | _ => false) = true) :=
  ⟨all_array (u := fun _ => .drain drainOp) (m := fun (x : Nat × Nat) => drainAtElt x.1 x.2) (by decide +kernel),
   by decide +kernel⟩

/-- R192: element 0 of row 1 of a bank stands at 1 · 128. -/
theorem test_muDrain :
    let s := (arrayOf (.drain drainOp) [{ lastRow 1 with par := (lastRow 1).par.set 3 128 }]).modCore 0 fun k => k.modM fun m =>
      { m with bank := [(129, 0x3F800000)] }
    ((after (exec (.muDrain 0 drainOp) s)).core 0).m.spad = [(128 + 2, 0x80), (128 + 3, 0x3F)] ∧
    ((after (exec (.muDrain 0 drainOp) s)).core 0).mx.q.map MxCall.elt = [1] := by decide +kernel

/-- A finished call with an arrival, its LAND to come or not. -/
def finished (land : Nat) : MxCall := { callAt 0 true with fin := true, arr := some 2, landDue := land }

theorem test_witness_ArrayEventsAndRows :
    (let s := (arrayOf .end_ [finished 0]).modCore 0 fun k => k.modMx fun x => { x with comp := [⟨0, 0x10, 9⟩] }
     (s.core 0).active = true ∧ State.arrayTime (s.core 0) = true ∧
     (s.core 0).mx.comp.find? (fun x => decide (x.due ≤ (s.core 0).mx.acyc)) = some ⟨0, 0x10, 9⟩ ∧ (s.core 0).f.frozen = false) ∧
    (let s := (arrayOf (.lat (latLoad 3)) [callAt 0 true]).modCore 0 fun k => (k.modF fun f => { f with frozen := true, bankFrozen := true }).modMx fun x =>
       { x with comp := [⟨0, 0x10, 9⟩] }
     (s.core 0).active = true ∧ State.arrayTime (s.core 0) = true ∧ (s.core 0).f.frozen = true ∧
     State.arrayMust ((s.core 0).modMx fun m => { m with comp := [], late := [] }) = false) ∧
    (∀ n ∈ [0, 9], let s := arrayOf .end_ [finished n]
      (s.core 0).mx.q = finished n :: [] ∧ (finished n).fin = true ∧ State.arrivalDue (s.core 0) (finished n) = decide (n = 0)) ∧
    (let m := { callAt 0 true with rowFault := some ⟨.align, 0, 4⟩ }
     m.fault = none ∧ m.rowFault = some ⟨.align, 0, 4⟩ ∧ m.rows = [] ∧ ((arrayOf .end_ [m]).core 0).mx.free ≤ ((arrayOf .end_ [m]).core 0).mx.acyc) ∧
    (let m := callAt 0 true
     let s := arrayOf (.mma .ph mma) [m]
     (s.core 0).active = true ∧ (s.core 0).mx.q = m :: [] ∧ decodeMicro ((s.core 0).mx.mic.get m.upc) = some (.mma .ph mma) ∧ m.fault = none ∧
     m.rowFault = none ∧ m.fin = false ∧ m.row + m.rows.length < (mmaOperand mma .ph).rows ∧ m.wait ≤ s.d.tick ∧
     (match s.rowSpots 0 m (mmaOperand mma .ph) 0 with
      | .ok ys => let xs := nextSpots m ys
        s.ordered 0 5 m.seq (s.spotKinds 0 xs) false false && decide (s.spotsWait xs = 0)
          && (match s.getSpots 0 xs with
            | .ok _ _ => true
            | _ => false)
          && decide (((s.noteSpots 0 m.ipc xs).core 0).mx = (s.core 0).mx)
      | _ => false) = true) ∧
    (let m := { callAt 0 true with par := (callAt 0 true).par.set 0 4 }
     isOk ((arrayOf (.mma .ph mma) [m]).rowSpots 0 m (mmaOperand mma .ph) 0) = false) ∧
    (let m := { callAt 0 true with par := (callAt 0 true).par.set 0 0x60000 }
     let s := arrayOf (.mma .ph mma) [m]
     (match s.rowSpots 0 m (mmaOperand mma .ph) 0 with
      | .ok xs => (match s.getSpots 0 (nextSpots m xs) with
            | .bad _ => true
            | _ => false)
      | _ => false) = true) ∧
    (∀ t ∈ [none, some 0, some 1], let m := { callAt 0 true with t0 := t }
     let u := { mma with space := .ws }
     let s := (arrayOf (.mma .ph u) [m]).modD fun d => { d with refresh := 0, tick := 1 }
     (s.core 0).active = true ∧ m.wait ≤ s.d.tick ∧ (mmaOperand u .ph).space = .ws ∧
     (match s.rowSpots 0 m (mmaOperand u .ph) 0 with
      | .ok xs => decide (0 < s.spotsWait (nextSpots m xs)) && s.ordered 0 5 m.seq (s.spotKinds 0 (nextSpots m xs)) false false
      | _ => false) = true) := by decide +kernel

theorem test_matrixCallComplete :
    ((after (exec (.matrixCallComplete 0) (arrayOf .end_ [finished 0]))).core 0).q.arr = [(2, 5)] := by decide +kernel
theorem test_blockComplete :
    ((after (exec (.blockComplete 0) ((arrayOf .end_ [finished 0]).modCore 0 fun k => k.modMx fun x => { x with comp := [⟨0, 0x10, 9⟩] }))).core 0).mx.comp = [] := by
  decide +kernel
theorem test_matrixFault :
    ((after (exec (.matrixFault 0) (arrayOf .end_ [{ callAt 0 true with rowFault := some ⟨.align, 0, 4⟩ }]))).core 0).mx.q.map MxCall.fault =
      [some ⟨.align, 3, 4⟩] := by decide +kernel
theorem test_operandRow :
    ((after (exec (.operandRowArrival 0) ((arrayOf (.mma .ph mma) [callAt 0 true]).modCore 0 fun k => k.modM fun m => { m with spad := [(0, 9)] }))).core 0).mx.q.map
      (fun m => (m.rows, m.part.length, m.part.headD 0)) = [([], 64, 9)] := by decide +kernel

/-! ### Memory operations -/

/-- An operation of the LD or ST slot on 64 bits at s4 + 64 in a space, for register 6. -/
def memOp (t : MemTag) (sp : Space) : MemOp :=
  ⟨t = .ldPf || t.isAt, false, if t = .ldPf then 0 else 6, sp, some 4, 64, if t.isLd && t ≠ .ldPf || t.isAt then 8 else 0,
   if t = .atFadd || t = .redFadd then 1 else 0, gd0⟩
/-- A space that an operation allows. -/
def spaceFor (t : MemTag) : Space := if t = .ldPf || t = .ldAcq || t = .stRel then .glob else .loc

theorem test_witness_MemoryOperationsEnter :
    (∀ t ∈ memRows.map Prod.snd, Issues (.mem t (memOp t (spaceFor t))) user) ∧ (∀ t ∈ memRows.map Prod.snd, (memOp t (spaceFor t)).space ≠ .spill) ∧
    Issues (.mem .ld ⟨false, true, 63, .handle, none, 4095, 4095, 2, gd0⟩) user ∧
    (∀ k ∈ [true, false], Issues (.mem .ld ⟨false, k, 9, .spill, none, 4096 - 32, 0, 0, gd0⟩) user) ∧
    (∀ k ∈ [true, false], Issues (.mem .st ⟨false, k, 9, .spill, none, 4096 - 32, 0, 0, gd0⟩) user) :=
  ⟨all_issue (f := fun t => .mem t (memOp t (spaceFor t))) (g := fun _ => user) (by decide +kernel), by decide +kernel, issues_of (by decide +kernel),
   all_issue (f := fun k => .mem .ld ⟨false, k, 9, .spill, none, 4096 - 32, 0, 0, gd0⟩) (g := fun _ => user) (by decide +kernel),
   all_issue (f := fun k => .mem .st ⟨false, k, 9, .spill, none, 4096 - 32, 0, 0, gd0⟩) (g := fun _ => user) (by decide +kernel)⟩

/-- R27: a load with LAND 8 lands at the end of cycle t + 7, from s4 + 64. -/
theorem test_ld : ((after (exec (.ld (memOp .ld .loc)) (withS 0 0x100 0))).core 0).q.ld.map (fun e => (e.addr.toNat, e.size, e.land, e.dest)) =
    [(0x140, 8, some 7, .s 6 false)] := by decide +kernel
theorem test_st : ((after (exec (.st { memOp .st .loc with reg := 5 }) (withS 0 0x100 77))).core 0).q.st.map (fun e => (e.addr.toNat, e.data.toNat)) =
    [(0x140, 77)] := by decide +kernel
theorem test_ld_spill : resultOf (exec (.ld ⟨false, false, 9, .spill, none, 8, 0, 1, gd0⟩)
    (userWith fun k => k.modM fun m => { m with spill := [(8, 1), (11, 0x80), (12, 5)] })) = some (0x80000001, 0, 0) := by decide +kernel
theorem test_st_spill : ((after (exec (.st ⟨false, false, 5, .spill, none, 4088, 0, 0, gd0⟩) (withS 0 0 0x0102))).core 0).m.spill =
    [(4088, 2), (4089, 1)] := by decide +kernel
theorem test_redAdd : ((after (exec (.redAdd { memOp .redAdd .loc with reg := 5 }) (withS 0 0 5))).core 0).q.at_.map (fun e => (e.data.toNat, e.land)) =
    [(5, none)] := by decide +kernel
theorem test_atCas : ((after (exec (.atCas { memOp .atCas .loc with reg := 4 }) (withS 0 3 9))).core 0).q.at_.map (fun e => (e.data.toNat, e.cmp)) =
    [(3, 9)] := by decide +kernel

/-- An entry of a queue. -/
def entry (t : MemTag) (sp : Space) (a : W64) (size : Nat) (data : W1024) : QEnt :=
  ⟨3, .op t, 0x40, 0, sp, a, 0, size, data, 0, if t.isAt || t = .ld then some 9 else none, .s 6 false, true, 0, false, .none, 0, 0, 0, false, false, none, some 2, false⟩
/-- Core 0 with one entry in the queue it belongs to, and the pages of `devM`. -/
def queued (e : QEnt) : State :=
  let t := match e.kind with
    | .op t => t
    | _ => .ld
  sys (core0.modQ fun q => if t.isLd then { q with ld := [e] } else if t.isSt then { q with st := [e] } else { q with at_ := [e] }) (devM 0 [])

/-- The first entry of a queue may be performed. -/
def mayPerform (q : Nat) (s : State) (l : List QEnt) (e : QEnt) : Bool :=
  decide (l.find? (fun x => !x.done) = some e) && e.fault.isNone && s.mayGo 0 q e && (s.accessCheck 0 e).isNone && decide (e.space ≠ .handle)

theorem may_perform {q : Nat} {s : State} {l : List QEnt} {e : QEnt} (h : mayPerform q s l e = true) : MayPerform 0 q s l e := by
  simp only [mayPerform, Bool.and_eq_true, decide_eq_true_eq, Option.isNone_iff_eq_none] at h
  exact ⟨h.1.1.1.1, h.1.1.1.2, h.1.1.2, h.1.2, h.2⟩

/-- A read that gives bytes; one that meets a fault. -/
def gives : Get → Bool
  | .ok _ _ => true
  | _ => false
def meets : Get → Bool
  | .bad _ => true
  | _ => false
/-- A write that is done, the queues of core 0 as they were; one that meets a fault. -/
def writes (s : State) : Put → Bool
  | .ok u => decide ((u.core 0).q = (s.core 0).q)
  | _ => false
def refuses : Put → Bool
  | .bad _ => true
  | _ => false

theorem test_witness_LoadsArePerformed :
    (∀ t ∈ [MemTag.ld, .ldTake], let e := entry t .loc (0x60000 - 8) 8 0
      t.isLd = true ∧ e.kind = .op t ∧ t ≠ .ldPf ∧ MayPerform 0 0 (queued e) ((queued e).core 0).q.ld e ∧ ((queued e).core 0).rg.opened = false ∧
      (queued e).wsReady e = true ∧ (queued e).loadWait e = 0) ∧
    gives ((queued (entry .ld .loc (0x60000 - 8) 8 0)).get 0 none .loc (0x60000 - 8) 8) = true ∧
    (let e := entry .ld .glob noPage 8 0
     MayPerform 0 0 (queued e) ((queued e).core 0).q.ld e ∧ meets ((queued e).get 0 none .glob noPage.toNat 8) = true) ∧
    (let e := entry .ldPf .glob 0x40 8 0
     e.kind = .op .ldPf ∧ ((queued e).core 0).q.ld.find? (fun x => !x.done) = some e ∧ e.fault = none ∧ (queued e).mayGo 0 0 e = true) ∧
    (let e := entry .ld .ws 0x40 8 0
     let s := (queued e).modD fun d => { d with refresh := 0, tick := 1 }
     MayPerform 0 0 s (s.core 0).q.ld e ∧ s.wsReady e = true ∧ e.until_ = 0 ∧ 0 < s.loadWait e) := by
  refine ⟨fun t h => ?_, by decide +kernel, ⟨may_perform (by decide +kernel), by decide +kernel⟩, by decide +kernel, may_perform (by decide +kernel),
    by decide +kernel⟩
  simp only [List.mem_cons, List.not_mem_nil, or_false] at h
  rcases h with rfl | rfl <;> exact ⟨rfl, rfl, by decide, may_perform (by decide +kernel), by decide +kernel⟩

/-- R203: the eight bytes join the entry's data; memory is as it was. -/
theorem test_loadPerform :
    let s := (queued (entry .ld .loc 0x40 8 0)).modCore 0 fun k => k.modM fun m => { m with spad := [(0x41, 2), (0x47, 1)] }
    ((after (exec (.loadPerform 0) s)).core 0).q.ld.map (fun e => (e.data.toNat, e.done)) = [(2 ^ 56 + 0x200, true)] := by decide +kernel
/-- R204: ld.take leaves its line empty. -/
theorem test_ldTake : ((after (exec (.loadPerform 0) (queued (entry .ldTake .loc 0x80 8 0)))).core 0).m.empty = [1] := by decide +kernel

theorem test_witness_StoresArePerformed :
    (∀ t ∈ [MemTag.st, .stFill], let e := entry t .loc 0x80 8 7
      ((queued e).core 0).q.st = e :: [] ∧ e.kind = .op t ∧ t.isSt = true ∧ e.done = false ∧ MayPerform 0 1 (queued e) ((queued e).core 0).q.st e ∧
      ((queued e).core 0).rg.opened = false) ∧
    (let s := queued (entry .st .loc 0x80 8 7)
     writes s (s.put 0 none 0x40 .loc 0x80 (bytesOf 8 7) false) = true) ∧
    (let e := entry .st .glob noPage 128 7
     MayPerform 0 1 (queued e) ((queued e).core 0).q.st e ∧ refuses ((queued e).put 0 none 0x40 .glob noPage.toNat (bytesOf 64 7) false) = true ∧
     (queued e).unitLen 0 .glob noPage.toNat 128 0 < 128) := by
  refine ⟨fun t h => ?_, by decide +kernel, ⟨may_perform (by decide +kernel), by decide +kernel, by decide +kernel⟩⟩
  simp only [List.mem_cons, List.not_mem_nil, or_false] at h
  rcases h with rfl | rfl <;> exact ⟨rfl, rfl, by decide, rfl, may_perform (by decide +kernel), rfl⟩

theorem test_storePerform :
    let k := (after (exec (.storePerform 0) (queued (entry .st .loc 0x80 8 0x0201)))).core 0
    k.m.spad = [(0x80, 1), (0x81, 2)] ∧ k.q.st = [] ∧ k.q.arr.map Prod.fst = [2] := by decide +kernel
theorem test_stFill :
    let s := (queued (entry .stFill .loc 0x80 8 1)).modCore 0 fun k => k.modM fun m => { m with empty := [1, 2] }
    ((after (exec (.storePerform 0) s)).core 0).m.empty = [2] := by decide +kernel

/-- A table of handles at 0x2000: the first entry a vector of four f32 elements at 0x10000. -/
def handleBytes : List Byte := bytesOf 64 (pack handleLayout [0x10000, 0, 3, 0, 0, 0, 0, Fmt.f32.code, 0, 0, 1, 0, 0, 0, 0, 0, 0])
/-- Core 0 with an entry and that table, of one entry or none. -/
def handled (e : QEnt) (valid : Bool) : State :=
  let s := queued e
  { s with d := s.d.writeMem ⟨.random 0, some 0⟩ 0x2000 handleBytes }.modCore 0 fun k => k.modW fun w =>
    { w with htb := BitVec.ofNat 64 (0x2000 + valid.toNat) }
/-- A part of an access through the handle, from an element on, of some bytes. -/
def elementOf (t : MemTag) (c0 size prog : Nat) : QEnt := { entry t .handle (BitVec.ofNat 64 c0) size 0x0807060504030201 with prog := prog }
/-- The handle. -/
def theHandle : Handle := ⟨0x10000, 0, [4, 1, 1, 1], 1, .f32, 0, 0, false, 0, 0, 0, 0, 0x2000, natOf handleBytes⟩

theorem handle_of {e : QEnt} {q n : Nat} (h : (decide (e.space = .handle) && e.fault.isNone && (handled e true).mayGo 0 q e
    && decide (theHandle.count e.size = some n) && !((handled e true).core 0).rg.opened
    && (match (handled e true).handle 0 e.handle with
      | .ok z => decide (z = theHandle)
      | _ => false)) = true) : MayReach 0 q (handled e true) e theHandle n := by
  simp only [Bool.and_eq_true, decide_eq_true_eq, Option.isNone_iff_eq_none, Bool.not_eq_true'] at h
  have r : (handled e true).handle 0 e.handle = .ok theHandle := by
    have := h.2
    split at this <;> simp_all
  exact ⟨h.1.1.1.1.1, h.1.1.1.1.2, h.1.1.1.2, r, h.1.1.2, h.1.2⟩

theorem test_witness_HandleAccesses :
    (∀ x ∈ [(2, 0), (2, 1), (3, 1), (4, 0)], MayReach 0 0 (handled (elementOf .ld x.1 8 x.2) true) (elementOf .ld x.1 8 x.2) theHandle 2) ∧
    (∀ x ∈ [(2, 1), (3, 1)], MayReach 0 1 (handled (elementOf .st x.1 8 x.2) true) (elementOf .st x.1 8 x.2) theHandle 2) ∧
    Inside (elementOf .ld 2 8 1) theHandle ∧ ¬ Inside (elementOf .ld 3 8 1) theHandle ∧ ¬ Inside (elementOf .ld 4 8 0) theHandle ∧
    (let e := elementOf .ld 2 8 1
     let s := handled e true
     (match elementAt s 0 e theHandle with
      | .ok va => decide (va = 0x1000C) && gives (s.get 0 none .glob va 4) && (match (s.noteUnit 0 e 4).put 0 none 0x40 .glob va [1, 2, 3, 4] false with
        | .ok u => decide ((u.core 0).q = (s.core 0).q)
        | _ => false)
      | _ => false) = true) ∧
    (let e := elementOf .ld 0 8 0
     ((handled e true).core 0).q.ld.find? (fun x => !x.done) = some e ∧ isOk ((handled e false).handle 0 e.handle) = false ∧
     (handled e false).mayGo 0 0 e = true) ∧
    (let e := { elementOf .ld 0 8 0 with size := 3 }
     (match (handled e true).handle 0 e.handle with
      | .ok h => decide (h.count e.size = none)
      | _ => false) = true) ∧
    (let e := elementOf .st 0 8 0
     ((handled e false).core 0).q.st = e :: [] ∧ isOk ((handled e false).handle 0 e.handle) = false ∧ (handled e false).mayGo 0 1 e = true) := by
  refine ⟨fun x h => ?_, fun x h => ?_, ?_, ?_, ?_, ?_⟩
  · simp only [List.mem_cons, List.not_mem_nil, or_false] at h
    rcases h with rfl | rfl | rfl | rfl <;> exact handle_of (by decide +kernel)
  · simp only [List.mem_cons, List.not_mem_nil, or_false] at h
    rcases h with rfl | rfl <;> exact handle_of (by decide +kernel)
  · simp only [Inside]; decide +kernel
  · simp only [Inside]; decide +kernel
  · simp only [Inside]; decide +kernel
  · decide +kernel

/-- R208: element 3 is read, and element 4 of 4 reads as zero. -/
theorem test_handle_load :
    let run := fun (e : QEnt) => ((after (exec (.loadPerform 0) { handled e true with
      d := (handled e true).d.writeMem ⟨.random 0, some 0⟩ 0x1000C [5, 6, 7, 8] })).core 0).q.ld.map (fun e => (e.data.toNat, e.done))
    run (elementOf .ld 3 8 0) = [(0x0807060504030201 ||| 0x08070605, false)] ∧ run (elementOf .ld 3 8 1) = [(0x0807060504030201, true)] := by
  decide +kernel
/-- R208: element 4 of 4 is not written, and the store is done. -/
theorem test_handle_store_outside :
    let t := after (exec (.storePerform 0) (handled (elementOf .st 3 8 1) true))
    (t.core 0).q.st = [] ∧ t.d.mem.get 0x10010 = 0 := by decide +kernel

/-- Core 0 in an open region with a store, and parts that it holds. -/
def regionWith (e : QEnt) (held : List Held) : State := (queued e).modCore 0 fun k => { k with
  rg := { k.rg with opened := true, unbuf := false, held := held, seq := 1 } }
/-- A store of two bytes beyond the core's own scratchpad, in core 5's. -/
def cluStore : QEnt := entry .st .clu (2 ^ 19 * 5 + 0x80) 8 0x0201
/-- n parts of a line each. -/
def heldParts (n : Nat) : List Held := (List.range n).map fun i => ⟨{ cluStore with seq := 2 }, 0, .clu, BitVec.ofNat 64 (2 ^ 19 * 6 + 128 * i), [7]⟩

theorem test_witness_RegionStores :
    (let s := regionWith cluStore []
     (s.core 0).q.st = cluStore :: [] ∧ MayPerform 0 1 s (s.core 0).q.st cluStore ∧ (s.core 0).rg.seq < cluStore.seq ∧ ownRange 0 .clu cluStore.addr = none ∧
     s.unitLen 0 .clu cluStore.addr.toNat cluStore.size 0 = 8 ∧ heldLines (heldParts 3) = 3) ∧
    (let e := entry .st .glob 0x3000 8 7
     let s := regionWith e []
     MayPerform 0 1 s (s.core 0).q.st e ∧ gives (s.reach 0 .write 0x3000 8).1 = true) ∧
    (let e := entry .st .glob noPage 8 7
     let s := regionWith e []
     MayPerform 0 1 s (s.core 0).q.st e ∧ meets (s.reach 0 .write noPage.toNat 8).1 = true) ∧
    (∀ h ∈ heldParts 2, h.space = .clu) ∧
    (let h : Held := ⟨cluStore, 0, .glob, noPage, [1]⟩
     isOk ((regionWith cluStore [h]).commitHeld 0 h) = false) ∧
    heldLines (heldParts 256 ++ [⟨cluStore, 0, .clu, cluStore.addr, [1]⟩]) = 257 := by
  refine ⟨⟨rfl, may_perform (by decide +kernel), by decide, by decide +kernel, by decide +kernel, by decide +kernel⟩,
    ⟨may_perform (by decide +kernel), by decide +kernel⟩, ⟨may_perform (by decide +kernel), by decide +kernel⟩, by decide +kernel,
    by decide +kernel, by decide +kernel⟩

/-- R240: the store goes to the region's list and not to the scratchpad; the commit writes it there. -/
theorem test_region_store :
    let t := after (exec (.storePerform 0) (regionWith cluStore []))
    (t.core 5).m.spad = [] ∧ (t.core 0).q.st = [] ∧ (t.core 0).rg.held.map (fun h => (h.addr.toNat, h.bytes.length)) = [(2 ^ 19 * 5 + 0x80, 8)] ∧
    ((t.commitRegion 0).1.core 5).m.spad = [(0x80, 1), (0x81, 2)] := by decide +kernel

/-- A user stream with the pages of `devM`. -/
def userM (k : Core → Core := id) : State := sys (k core0) (devM 0 [])

theorem test_witness_WritesReachTheirPlace :
    (∀ sp ∈ [Space.loc, .clu, .ws], writes userM (userM.put 0 none 0 sp 0x7F [1, 2] false) = true) ∧
    writes userM (userM.put 0 none 0 .glob (2 ^ 30 - 2) [1, 2] false) = true ∧
    (match userM.placesVa 0 .write 8 (2 ^ 30 - 2) 2 with
     | .ok [(_, n)] => n == 2
     | _ => false) = true := by decide +kernel

theorem test_write_crosses_lines :
    (match userM.put 0 none 0 .loc 0x7F [1, 2] false with
     | .ok t => (t.core 0).m.spad
     | _ => []) = [(0x7F, 1), (0x80, 2)] := by decide +kernel
theorem test_write_cluster :
    (match userM.put 0 none 0 .clu (2 ^ 19 * 9 + 5) [3] false with
     | .ok t => (t.core 9).m.spad
     | _ => []) = [(5, 3)] := by decide +kernel

/-- R210: minimum and maximum, signed and not, and compare and swap. -/
theorem test_redApply :
    redApply .minI true 0xFFFFFFFFFFFFFFFF 1 0 = 0xFFFFFFFFFFFFFFFF ∧ redApply .minN true 0xFFFFFFFFFFFFFFFF 1 0 = 1 ∧
    redApply .maxI false 0xFFFFFFFF 1 0 = 1 ∧ redApply .cas true 3 3 9 = 9 ∧ redApply .cas true 4 3 9 = 4 ∧
    redApply .add false 0xFFFFFFFF 1 0 = 0 := by decide +kernel

/-- A location of a reduction window of devices 0 and 3, with partials of its round. -/
def windowAt (ps : List (Nat × W64)) : Window := ⟨0x48, [0, 3], 1, [], ps, [], .add, true, 1, 0⟩
/-- A state with a reduction window of one location, its partials there or not. -/
def windowState (e : QEnt) (ps : List (Nat × W64)) : State :=
  let s := sys (core0.modQ fun q => { q with at_ := [e] }) (devM 0 [])
  s.modD fun d =>
    { d.rawWrite 0 0x40001000 (bytesOf 8 (pack pteLayout [1, 1, 1, 0, 1, 3, 1, 1, 0, 0, 1])) with
      locs := [windowAt ps] }

theorem test_witness_AtomicsAndReductions :
    (let e := entry .atAdd .loc 0x48 8 5
     e.kind = .op .atAdd ∧ MayPerform 0 4 (queued e) ((queued e).core 0).q.at_ e ∧ (queued e).windowPlace 0 e = none ∧
     gives ((queued e).rmw 0 0x40 .loc 0x48 8 (.atomic true) (fun x => redApply .add true x 5 0)).1 = true) ∧
    (let e := entry .redAdd .glob 0x48 8 5
     MayPerform 0 4 (windowState e []) ((windowState e []).core 0).q.at_ e ∧
     ((windowState e []).windowPlace 0 e).map (fun p => (p.pa, (windowState e []).d.gone p.pa 8, (windowState e []).d.memPoisoned p.pa 8,
       (windowState e []).d.locked p.pa 8)) = some (0x48, false, false, false) ∧
     (let s := (windowState e []).modD fun d => { d with memP := [1] }
      MayPerform 0 4 s (s.core 0).q.at_ e ∧ (s.windowPlace 0 e).isSome = true ∧ s.d.memPoisoned 0x48 8 = true)) ∧
    (let s := windowState (entry .redAdd .glob 0x48 8 5) [(3, 10), (0, 5)]
     s.d.locs.find? (fun w => w.loc == 0x48) = some (windowAt [(3, 10), (0, 5)]) ∧
     (sortBy Nat.ble [0, 3]).map (fun p => ([(3, (10 : W64)), (0, 5)].find? fun x => x.1 == p).map Prod.snd) = [some 5, some 10] ∧
     mergeTree (fun a b => redApply .add true a b 0) 64 [5, 10] = some 15 ∧ s.d.locked 0x48 8 = false ∧ s.d.gone 0x48 8 = false ∧
     s.d.memPoisoned 0x48 8 = false ∧ (s.modD fun d => { d with memP := [1] }).d.memPoisoned 0x48 8 = true) :=
  ⟨⟨rfl, may_perform (by decide +kernel), by decide +kernel, by decide +kernel⟩, ⟨may_perform (by decide +kernel), by decide +kernel,
   may_perform (by decide +kernel), by decide +kernel⟩, by decide +kernel⟩

/-- R210: at.add leaves the sum in memory and the old value for its register. -/
theorem test_atomicPerform :
    let s := (queued (entry .atAdd .loc 0x48 8 5)).modCore 0 fun k => k.modM fun m => { m with spad := [(0x48, 7)] }
    ((after (exec (.atomicPerform 0) s)).core 0).m.spad = [(0x48, 12)] ∧
    ((after (exec (.atomicPerform 0) s)).core 0).q.at_.map (fun e => (e.data.toNat, e.done)) = [(7, true)] := by decide +kernel
theorem test_windowContribution :
    (after (exec (.windowContribution 0) (windowState (entry .redAdd .glob 0x48 8 5) []))).d.locs.map (fun w => (w.partials, w.unmerged)) =
      [([(0, 5)], [(0, 3)])] := by decide +kernel

/-! ### Copies and shuffles -/

/-- Copies between scratchpads, captured from s6 + 128, s7 and s8. -/
def cpOp (mode : CpMode) : CpOp := ⟨mode, .loc, 6, 1, .loc, 7, 8, gd0⟩
/-- A copy in the copy queue. -/
def copyEntry (fill begun : Bool) (mode : CpMode) (n prog : Nat) : Copy :=
  ⟨3, 0x40, 0, fill, mode, .loc, 0x100, .loc, 0x1000, BitVec.ofNat 64 n, prog, begun, 0, false, [], [], 0, none, some 2, false⟩
/-- Core 0 with a copy. -/
def copying (x : Copy) : State := sys ((core0.modQ fun q => { q with cp := [x] }).modM fun m => { m with spad := [(0x1000, 9), (0x1081, 8)] }) (devM 0 [])
/-- A unit that is read. -/
def unitRead (b : Nat) : List Byte × Bool := (bytesOf 16 b, false)

theorem test_witness_Copies :
    (∀ m ∈ [CpMode.plain, .fe, .ui], Issues (.cp .cpCopy (cpOp m)) user) ∧ (∀ m ∈ [CpMode.plain, .fe, .ui], Issues (.cp .cpFill (cpOp m)) user) ∧
    (∀ s ∈ [user, copying (copyEntry false false .plain 256 0)], Issues (.cp .cpClose ⟨.plain, .loc, 0, 0, .loc, 0, 0, gd0⟩) s) ∧
    (∀ n ∈ [0, 128], let x := copyEntry false false .plain n 0
      ((copying x).core 0).q.cp = x :: [] ∧ x.fault = none ∧ x.begun = false ∧ (copying x).copyCheck 0 x = none) ∧
    (let x := { copyEntry false false .plain 128 0 with dst := 0x5FFF0 }
     x.fault = none ∧ (copying x).copyCheck 0 x ≠ none) ∧
    (∀ b ∈ [true, false], ∀ m ∈ [CpMode.plain, .fe], ∀ n ∈ [(144, 0), (144, 128)], let x := copyEntry b true m n.1 n.2
      let s := copying x
      (s.core 0).q.cp = x :: [] ∧ x.fault = none ∧ x.begun = true ∧ (AtLevel 0 0 s).ordered 0 2 3 [] false false = true ∧
      (AtLevel 0 0 s).pieceFault 0 x = none ∧ gives ((AtLevel 0 0 s).get 0 (some 1) .loc (0x1000 + n.2) 16) = true) ∧
    (let x := { copyEntry false true .plain 128 0 with dsp := .glob, dst := noPage }
     (copying x).pieceFault 0 x ≠ none) ∧
    (let x := { copyEntry false true .plain 128 0 with wrote := [false], src := 0x60000 - 16 }
     (copying x).pieceFault 0 x = none ∧ meets ((copying x).get 0 (some 1) .loc 0x60000 16) = true) ∧
    (∀ n ∈ [128, 16], let x := { copyEntry false true .plain n 0 with buf := [unitRead 7] }
     (copying x).pieceFault 0 x = none ∧ writes (copying x) ((copying x).put 0 (some 1) 0x40 .loc 0x100 (bytesOf 16 7) false) = true ∧
     decide (x.wrote.length + 1 = (n + 15) / 16) = decide (n = 16)) ∧
    (let x := { copyEntry false true .plain 128 0 with buf := [unitRead 7], dsp := .glob, dst := noPage }
     (copying x).pieceFault 0 x = none ∧ refuses ((copying x).put 0 (some 1) 0x40 .glob noPage.toNat (bytesOf 16 7) false) = true) := by
  refine ⟨all_issue (f := fun m => .cp .cpCopy (cpOp m)) (g := fun _ => user) (by decide +kernel),
    all_issue (f := fun m => .cp .cpFill (cpOp m)) (g := fun _ => user) (by decide +kernel),
    all_issue (f := fun _ => .cp .cpClose ⟨.plain, .loc, 0, 0, .loc, 0, 0, gd0⟩) (g := id) (by decide +kernel), ?_, ?_, ?_, ?_, ?_, ?_, ?_⟩
  all_goals decide +kernel

/-- R213, R271: a unit of 16 bytes is read, and then written. -/
theorem test_copy_unit :
    let t := after (exec (.copyPieceWrite 0) (copying (copyEntry false true .plain 144 0)))
    (t.core 0).q.cp.map (fun x => x.buf.map Prod.fst) = [[bytesOf 16 9]] ∧
    ((after (exec (.copyPieceWrite 0) t)).core 0).m.spad = [(0x100, 9), (0x1000, 9), (0x1081, 8)] ∧
    ((after (exec (.copyPieceWrite 0) t)).core 0).q.cp.map (fun x => (x.buf, x.wrote, x.prog)) = [([], [false], 0)] := by decide +kernel
theorem test_copy_last :
    let t := after (exec (.copyPieceWrite 0) (copying (copyEntry false true .plain 144 128)))
    let k := (after (exec (.copyPieceWrite 0) t)).core 0
    k.q.cp = [] ∧ k.m.spad = [(0x181, 8), (0x1000, 9), (0x1081, 8)] ∧ k.q.earr.map Prod.fst = [2] := by decide +kernel
theorem test_cpCopy :
    let s := userWith fun k => { k with r := { k.r with s := ((k.r.s.set 6 0x800).set 7 0x40).set 8 256 } }
    ((after (exec (.cpCopy (cpOp .fe)) s)).core 0).q.cp.map (fun x => (x.dst.toNat, x.src.toNat, x.n.toNat)) = [(0x880, 0x40, 256)] ∧
    ((after (exec (.cpCopy (cpOp .fe)) s)).core 0).m.empty = [17, 18] := by decide +kernel
/-- R214, R406: a fill writes its pattern, and one whose pattern is poisoned poisons the line. -/
theorem test_fill :
    let run := fun (x : Copy) => (after (exec (.copyPieceWrite 0) (after (exec (.copyPieceWrite 0) (copying x))))).core 0
    (run { copyEntry true true .plain 16 0 with src := 0x0201 }).m.spad =
      [(0x100, 1), (0x101, 2), (0x108, 1), (0x109, 2), (0x1000, 9), (0x1081, 8)] ∧
    (run { copyEntry true true .plain 16 0 with poison := true }).m.spadP = [2] := by decide +kernel

/-- A transpose of 2 rows of 3 elements of 2 bytes. -/
def trEntry (begun : Bool) (prog : Nat) : Shuf := ⟨3, 0x40, 0, .bxTr, .loc, 0x200, .loc, 0x100, 0x100030002, 0, prog, begun, 0, none, some 2, false⟩
/-- Core 0 with a shuffle and elements 1 to 6. -/
def shuffling (x : Shuf) : State := userWith fun k => (k.modQ fun q => { q with sh := [x] }).modM fun m =>
  { m with spad := [(0x100, 1), (0x102, 2), (0x104, 3), (0x106, 4), (0x108, 5), (0x10A, 6)] }
/-- Its shape. -/
def trShape : Shape := ⟨2, 6, 6, 6, 2, 3, 0, 0, 0, false⟩

theorem shape_tr (b : Bool) (n : Nat) : shapeOf (trEntry b n) = .ok trShape :=
  ok_of (x := shapeOf (trEntry false 0)) (by decide +kernel)

theorem test_witness_Shuffles :
    (∀ t ∈ [CpTag.bxTr, .bxIlv, .bxGth, .bxSct, .bxBc], Issues (.cp t ⟨.plain, .loc, 6, 1, .clu, 7, 47, gd0⟩) user) ∧
    (∀ x ∈ [trEntry false 0, trEntry true 5], ((shuffling x).core 0).q.sh = x :: [] ∧ x.fault = none ∧
      (AtLevel 0 0 (shuffling x)).ordered 0 3 3 [] false false = true ∧ (x.begun = false ∧ (AtLevel 0 0 (shuffling x)).shufCheck 0 x = none ∨ x.begun = true) ∧ x.prog < 6 ∧
      (match ((AtLevel 0 0 (shuffling x)).modCore 0 fun k => k.modShuf x.seq fun y => { y with begun := true }).shufElem 0 { x with begun := true } trShape with
       | .ok _ => true
       | _ => false) = true) ∧
    (∀ x ∈ [trEntry false 0, trEntry true 5], shapeOf x = .ok trShape) ∧
    (let x := { trEntry false 0 with src := 0x101 }
     x.begun = false ∧ (shuffling x).shufCheck 0 x ≠ none) ∧
    ((trEntry true 6).begun = true ∧ shapeOf (trEntry true 6) = .ok trShape ∧ trShape.total ≤ (trEntry true 6).prog) ∧
    (∀ d ∈ [((0x200 : Nat), false), (0x104, true)], let x := { trEntry true 6 with dst := BitVec.ofNat 64 d.1 }
      (shuffling x).shufOverlap 0 x trShape = d.2 ∧
      writes (shuffling x) ((shuffling x).put 0 (some 2) 0x40 .loc d.1 (freeBytes 0 0 12) false) = true) ∧
    (let h : Shape := ⟨1, 4, 8, 4, 0, 0, 8, 0, 0, true⟩
     (7 : Nat) < h.len ∧ (7 : Nat) ≠ 0xFFFFFFFF ∧ h.len ≤ 8) :=
  ⟨all_issue (f := fun t => .cp t ⟨.plain, .loc, 6, 1, .clu, 7, 47, gd0⟩) (g := fun _ => user) (by decide +kernel), by decide +kernel,
   by
    intro x h
    simp only [List.mem_cons, List.not_mem_nil, or_false] at h
    rcases h with rfl | rfl <;> exact shape_tr _ _, by decide +kernel, ⟨rfl, shape_tr _ _, by decide⟩, by decide +kernel, by decide⟩

/-- R221: element (2, 1) of the transposed matrix is element (1, 2), the sixth. -/
theorem test_transpose :
    ((after (exec (.shuffleBegin 0 1) (shuffling (trEntry true 5)))).core 0).m.spad.filter (fun e => 0x200 ≤ e.1) = [(0x20A, 6)] ∧
    ((after (exec (.shuffleBegin 0 1) (shuffling (trEntry true 1)))).core 0).m.spad.filter (fun e => 0x200 ≤ e.1) = [(0x202, 4)] := by decide +kernel
theorem test_shuffleComplete :
    let k := (after (exec (.shuffleComplete 0) (shuffling (trEntry true 6)))).core 0
    k.q.sh = [] ∧ k.q.earr.map Prod.fst = [2] := by decide +kernel

/-! ### Barriers and synchronisation -/

/-- An SY operation at an object, a register and an immediate. -/
def syOp (bar : BitVec 4) (sa : BitVec 6) (imm : BitVec 16) : SyOp := ⟨bar, sa, 0, imm, gd0⟩
/-- A caravan with one object at a state. -/
def withBar (b : Fin 16) (x : Bar) (s : State) : State := s.modD fun d => { d with cars := [{ placedCar 0 with bars := (placedCar 0).bars.set b x }] }
/-- An object. -/
def barOf (pend part : Nat) (phase broken : Bool) : Bar := ⟨pend, part, phase, broken, [], []⟩

theorem others_unbound {b : Fin 16} {x : Bar} {g : Core → Core} (a : CoreId) (h : a ≠ 0) :
    (((withBar b x user).modCore 0 g).core a).car ≠ some 0 := by
  rw [State.modCore_core_ne _ _ h]
  show ((sys core0 dev0).core a).car ≠ some 0
  rw [sys_core, if_neg (show ¬ a.val = 0 from fun e => h (Fin.ext e))]
  decide

theorem test_witness_Barriers :
    (∀ x ∈ [SyTag.barInitImm, .barInitReg, .barExpectImm, .barExpectReg, .barArrive, .barWait, .barTest], Issues (.sy x (syOp 15 0 0)) user) ∧
    (∀ p ∈ [0, 1, 2], (barOf p 3 false false).pend = p) ∧
    InCaravan user 0 0 (placedCar 0) ∧
    (let s := (withBar 15 (barOf 1 3 false false) user).modCore 0 fun k => (k.modF fun f => { f with at_ := .after }).modQ fun q => { q with arr := [(15, 3)] }
     (∃ x, InCaravan s 0 0 x) ∧ (∀ a, a ≠ 0 → (s.core a).car ≠ some 0) ∧ ownReady (s.core 0) = true ∧ (s.core 0).q.arr = [(15, 3)]) ∧
    (user.bar 0 15).pend = 0 ∧ ((withBar 15 (barOf 1 3 false false) user).bar 0 15).pend ≠ 0 ∧
    Issues (.sy .barWait (syOp 15 0 0)) (withBar 15 (barOf 1 3 false false) user) ∧
    (∀ x ∈ [barOf 0 3 false true, barOf 3 3 true false],
      let s := (withBar 15 x user).modCore 0 fun k => k.modQ fun q => { q with hold := some ⟨.barWait 15 false, 7, 0, 0, 7, 0, none, false, none⟩ }
      (s.core 0).atBoundary = true ∧ (s.core 0).stopPending = false ∧ (s.core 0).uiPending = false ∧ s.detNow 0 = false ∧
      (s.core 0).waiting.map (fun x => (x.1.seq, x.2)) = some (7, 15, false) ∧
      ((s.bar 0 15).broken = true ∨ (s.bar 0 15).phase ≠ false)) := by
  refine ⟨all_issue (f := fun x => .sy x (syOp 15 0 0)) (g := fun _ => user) (by decide +kernel), by decide +kernel, ⟨by decide +kernel, by decide +kernel⟩,
    ⟨⟨_, by decide +kernel, rfl⟩, others_unbound, by decide +kernel, by decide +kernel⟩, by decide +kernel, by decide +kernel, issues_of (by decide +kernel),
    by decide +kernel⟩

/-- R228: bar.init sets both counts and flips PHASE, once its cycle ends. -/
theorem test_barInit :
    let s := after (exec (.barInitImm (syOp 2 0 3)) (userWith fun k => k.modF fun f => { f with at_ := .after }))
    let t := after (exec (.resultWriteback 0) s)
    (t.bar 0 2).pend = 3 ∧ (t.bar 0 2).part = 3 ∧ (t.bar 0 2).phase = true := by decide +kernel
theorem test_barExpect :
    let s := after (exec (.barExpectImm (syOp 2 0 2)) ((withBar 2 (barOf 1 3 false false) user).modCore 0 fun k => k.modF fun f => { f with at_ := .after }))
    ((after (exec (.resultWriteback 0) s)).bar 0 2).pend = 3 := by decide +kernel
/-- R226: the last arrival reloads PEND and flips PHASE; R227: an arrival at PEND 0 breaks the object. -/
theorem test_arrival :
    let s := (withBar 15 (barOf 1 3 false false) user).modCore 0 fun k => (k.modF fun f => { f with at_ := .after }).modQ fun q => { q with arr := [(15, 3)] }
    ((after (exec (.barrierArrival 0 15) s)).bar 0 15).pend = 3 ∧ ((after (exec (.barrierArrival 0 15) s)).bar 0 15).phase = true ∧
    (Bar.arrive 0 0 true (barOf 0 3 false false)).broken = true := by decide +kernel
theorem test_barWait :
    ((after (exec (.barWait (syOp 15 0 0)) (withBar 15 (barOf 1 3 true false) user))).core 0).q.hold.map Hold.kind = some (.barWait 15 true) ∧
    ((after (exec (.barWait (syOp 15 0 0)) user)).core 0).q.hold = none := by decide +kernel
theorem test_barTest :
    ((after (exec (.barTest (syOp 15 3 0)) (withBar 15 (barOf 1 3 true false) user))).core 0).q.pend.map (fun p => (p.dest, p.val.toNat)) =
      [(.s 3 false, 1 + 3 * 2 ^ 20 + 2 ^ 40)] := by decide +kernel
theorem test_barWaitRelease :
    let s := (withBar 15 (barOf 3 3 true false) user).modCore 0 fun k => k.modQ fun q => { q with hold := some ⟨.barWait 15 false, 7, 0, 0, 7, 0, none, false, none⟩ }
    ((after (exec (.barWaitRelease 0) s)).core 0).q.hold = none := by decide +kernel
theorem test_barArrive : ((after (exec (.barArrive (syOp 5 0 0)) user)).core 0).q.pend.map Pend.arr = [some 5] := by decide +kernel

/-- A control word that is a descriptor (R75) of engine 1, with one write range of lines 4 to 5. -/
def descWord : W256 := BitVec.ofNat 256 (pack descLayout [0xF0, 0, 1, 0, 1, 0, 0, 0, 0, 0, 4 + 5 * 2 ^ 12, 0, 0, 0])
/-- A deterministic kernel with that word as entry 12. -/
def withDesc (n : Nat) (x : Copy) : State := userWith fun k =>
  ((k.modW fun w => { w with det := true }).modM fun m => { m with cwt := [(12, descWord)] }).modQ fun q =>
    { q with cp := if n = 0 then [] else [x] }
/-- A descriptor of engine 0, as a region's is (R222), with the same write range. -/
def regionWord : W256 := BitVec.ofNat 256 (pack descLayout [0xF0, 0, 0, 0, 1, 0, 0, 0, 0, 0, 4 + 5 * 2 ^ 12, 0, 0, 0])
/-- Core 0 with that word as entry 12. -/
def withRegion : State := userWith fun k => k.modM fun m => { m with cwt := [(12, regionWord)] }

/-- A deterministic kernel, SFC at n. -/
def framing (n : BitVec 32) : State := userWith fun k => k.modW fun w => { w with sfc := n, det := true }

theorem test_witness_FencesFramesAndPhases :
    (∀ i ∈ [(0 : BitVec 16), 4], Issues (.sy .syFence (syOp 0 0 i)) user) ∧
    (∀ i ∈ [(1 : BitVec 16), 63], Issues (.sy .syQjoin (syOp 0 0 i)) user) ∧
    (∀ i ∈ [(0 : BitVec 16), 65535], Issues (.sy .syWaitb (syOp 0 0 i)) user) ∧ Issues (.sy .syFrame (syOp 0 0 0)) (framing 9) ∧
    user.fenceMet 0 7 4 = true ∧ (copying (copyEntry false false .plain 8 0)).fenceMet 0 7 0 = false ∧
    Issues (.sy .syFence (syOp 0 0 0)) (copying (copyEntry false false .plain 8 0)) ∧
    Issues (.sy .syWaitb (syOp 0 0 0)) (copying (copyEntry false false .plain 8 0)) ∧
    State.outstanding ((copying (copyEntry false false .plain 8 0)).modMe Core.closeBatch).me = 1 ∧ State.outstanding (user.modMe Core.closeBatch).me = 0 ∧
    (∀ n ∈ [0, 1], Issues (.sy .syPhase (syOp 0 0 12)) (withDesc n (copyEntry false false .plain 8 0))) ∧
    (decodeDescriptor descWord).isSome = true ∧
    (∀ n ∈ [0, 1], State.engineDone (withDesc n (copyEntry false false .plain 8 0)).me 1 7 = decide (n = 0)) ∧
    (∀ d, decodeDescriptor descWord = some d → State.phaseClash (withDesc 0 (copyEntry false false .plain 8 0)).me d = none ∧ d.eng = 1) := by
  refine ⟨all_issue (f := fun i => .sy .syFence (syOp 0 0 i)) (g := fun _ => user) (by decide +kernel),
    all_issue (f := fun i => .sy .syQjoin (syOp 0 0 i)) (g := fun _ => user) (by decide +kernel),
    all_issue (f := fun i => .sy .syWaitb (syOp 0 0 i)) (g := fun _ => user) (by decide +kernel), issues_of (by decide +kernel), by decide +kernel,
    by decide +kernel, issues_of (by decide +kernel), issues_of (by decide +kernel), by decide +kernel, by decide +kernel,
    all_issue (f := fun _ => .sy .syPhase (syOp 0 0 12)) (g := fun n => withDesc n (copyEntry false false .plain 8 0)) (by decide +kernel), by decide +kernel,
    by decide +kernel, fun d h => ?_⟩
  have e : decodeDescriptor descWord = some ⟨1, [], [(4, 5)]⟩ := by decide +kernel
  rw [e] at h
  obtain rfl := Option.some.inj h
  decide +kernel

theorem test_witness_supervisor_descriptor :
    (level 1).me.w.pl ≠ 0 ∧ (level 1).fnOf (level 1).cur = some 0 ∧ user.me.w.pl = 0 := by decide +kernel

theorem test_syFrame : ((after (exec (.syFrame (syOp 0 0 0)) (framing 9))).core 0).w.sfc = 0 := by decide +kernel
theorem test_syQjoin : ((after (exec (.syQjoin (syOp 0 0 9)) user)).core 0).q.joins.map (fun j => (j.seq, j.queues)) = [(7, 9)] := by decide +kernel
theorem test_syPhase : ((after (exec (.syPhase (syOp 0 0 12)) (withDesc 0 (copyEntry false false .plain 8 0)))).core 0).ph[1] = ⟨true, 12, [], [(4, 5)]⟩ := by
  decide +kernel
theorem test_syFence : ((after (exec (.syFence (syOp 0 0 0)) (copying (copyEntry false false .plain 8 0)))).core 0).q.hold.map Hold.kind = some (.fence 0) := by
  decide +kernel
theorem test_syWaitb : ((after (exec (.syWaitb (syOp 0 0 0)) (copying (copyEntry false false .plain 8 0)))).core 0).q.hold.map Hold.kind = some (.waitb 0) := by
  decide +kernel

/-- A part of a store to a place of core 0's scratchpad. -/
def heldPart (sp : Space) (a : W64) (bs : List Byte) : Held := ⟨entry .st sp a 8 0x0201, 0, sp, a, bs⟩
/-- A region open on core 0 with a store held. -/
def inRegion : State := userM fun k => { k with rg := { Region.reset with opened := true, cx := 12, wr := [(4, 5)], held := [heldPart .loc 0x200 [1, 2]] } }
/-- A pool with no room. -/
def fullPool : State := user.modD fun d => { d with recs := placedRec 0 :: List.replicate 4096 { placedRec 0 with id := 1, st := .runnable } }

theorem test_witness_RunsRecordsAndRegions :
    (∀ t ∈ [SyTag.sySuspend, .sySuspendEv, .sySuspendFe, .syYield, .syRetire], Issues (.sy t (syOp 0 0 0)) user) ∧
    Issues (.sy .syYieldPark (syOp 0 0 0)) (level 1) ∧
    (∀ i ∈ [(0 : BitVec 16), 1], Issues (.sy .sySpawn (syOp 0 3 i)) user) ∧ user.recRun 0 = some (placedRec 0) ∧ user.d.poolCount 0 1 < 4096 ∧
    Issues (.sy .syIreg (syOp 0 0 12)) withRegion ∧ Issues (.sy .syIend (syOp 0 0 0)) inRegion ∧
    inRegion.me.rg.held = [heldPart .loc 0x200 [1, 2]] ∧ Issues (.sy .syEvent (syOp 0 3 0)) user ∧ InCaravan user user.cur 0 (placedCar 0) :=
  ⟨all_issue (f := fun t => .sy t (syOp 0 0 0)) (g := fun _ => user) (by decide +kernel), issues_of (by decide +kernel),
   all_issue (f := fun i => .sy .sySpawn (syOp 0 3 i)) (g := fun _ => user) (by decide +kernel), by decide +kernel, by decide +kernel,
   issues_of (by decide +kernel), issues_of (by decide +kernel), by decide +kernel, issues_of (by decide +kernel), by decide +kernel, by decide +kernel⟩

theorem test_witness_fullPool : Issues (.sy .sySpawn (syOp 0 3 0)) fullPool ∧ fullPool.recRun 0 = some (placedRec 0) ∧ 4096 ≤ fullPool.d.poolCount 0 0 :=
  ⟨issues_of (by decide +kernel), by decide +kernel, by decide +kernel⟩

theorem test_witness_commit_faults :
    let s := inRegion.modMe fun k => { k with rg := { k.rg with held := [heldPart .glob noPage [1]] } }
    Issues (.sy .syIend (syOp 0 0 0)) s ∧ (s.commitRegion 0).2.isSome = true ∧ (inRegion.commitRegion 0).2 = none :=
  ⟨issues_of (by decide +kernel), by decide +kernel, by decide +kernel⟩

theorem test_sySpawn :
    ((after (exec (.sySpawn (syOp 0 3 1)) (withS 0x80 7 0))).d.recs.drop 1).map (fun r => (r.pc.toNat, r.stage, r.s[3].toNat, r.s[4].toNat)) =
      [(0x80, 1, 0x80, 7)] := by decide +kernel
theorem test_syEvent :
    ((after (exec (.syEvent (syOp 0 3 0)) (withS 1023 0 0))).d.cars.map Caravan.evs) = [BitVec.twoPow 1024 1023] := by decide +kernel
theorem test_syIreg : ((after (exec (.syIreg (syOp 0 0 12)) withRegion)).core 0).rg.wr = [(4, 5)] := by decide +kernel
theorem test_syIend :
    let k := (after (exec (.syIend (syOp 0 0 0)) inRegion)).core 0
    k.m.spad = [(0x200, 1), (0x201, 2)] ∧ k.rg.opened = false := by decide +kernel
theorem test_sySuspend : ((after (exec (.sySuspend (syOp 4 0 0)) user)).core 0).q.hold.map Hold.kind = some (.endRun .sySuspend 0) := by decide +kernel

/-- A hold with an arrival. -/
def holdOf (k : HoldKind) : Hold := ⟨k, 7, 0, 0, 7, 0, some 3, false, none⟩
/-- Core 0 at the end of a cycle in a hold of its SY slot. -/
def holding (k : HoldKind) (s : State) : State :=
  s.modCore 0 fun c => (c.modF fun f => { f with at_ := .after }).modQ fun q => { q with hold := some (holdOf k) }

/-- The holds whose condition holds, with the state they end in. -/
def endingHolds : List (HoldKind × State) :=
  [(.fence 0, user), (.waitb 0, user), (.drained [0], user), (.mpsSwap, level 1), (.spawn 0x80 0 (Vector.replicate 5 0), user), (.restart, inRegion), (.iend, inRegion)]

theorem test_witness_HoldsEnd :
    Issues (.sy .mpsSwap (syOp 0 0 0)) (level 1) ∧ (level 1).me.mx.q = [] ∧ storeFails (level 1).me.mx.sent (level 1).me.mx.smic = none ∧
    (let s := (level 1).modMe fun k => k.modMx fun x => { x with sent := [(3, 8)] }
     Issues (.sy .mpsSwap (syOp 0 0 0)) s ∧ s.me.mx.q = [] ∧ storeFails s.me.mx.sent s.me.mx.smic = some 259) ∧
    (let s := (level 1).modMe fun k => k.modMx fun x => { x with q := [callAt 0 true] }
     Issues (.sy .mpsSwap (syOp 0 0 0)) s ∧ s.me.mx.q ≠ []) ∧
    (∀ x ∈ endingHolds, HoldOver 0 (holdOf x.1) (holding x.1 x.2)) ∧
    (∀ n ∈ [0, 1], HoldOver 0 (holdOf (.resume 0x100000 n)) (holdingS (holdOf (.resume 0x100000 n)) (level 1))) ∧
    (match (holding (.drained [0]) user).openPhase 0 ((holdOf (.drained [0])).sy.imm.toNat % 512) with | .inl _ => true | _ => false) = true ∧
    ((user.core 0).run = some 0 ∧ user.d.crec 0 = some (placedRec 0) ∧ (user.core 0).sup = false) ∧
    (user.bar 0 4).pend = 0 ∧ ((withBar 4 (barOf 1 3 false false) user).bar 0 4).pend ≠ 0 ∧
    ((withBar 4 (barOf 1 3 false false) user).core 0).run = some 0 ∧ (withBar 4 (barOf 1 3 false false) user).d.crec 0 = some (placedRec 0) := by
  refine ⟨issues_of (by decide +kernel), by decide +kernel, by decide +kernel, ⟨issues_of (by decide +kernel), by decide +kernel⟩,
    ⟨issues_of (by decide +kernel), by decide +kernel⟩, ?_, ?_, by decide +kernel, by decide +kernel, by decide +kernel, by decide +kernel, by decide +kernel,
    by decide +kernel⟩
  all_goals (simp only [HoldOver]; decide +kernel)

/-- A resume of no records, its area in reach and not. -/
theorem test_witness_HoldsEnd_resume :
    (let s := holdingS (holdOf (.resume 0x100000 0)) (level 1)
     ((s.sampleHold 0).restore 0 0x100000 0 (holdOf (.resume 0x100000 0)).ipc).2.isSome = true) ∧
    (let s := holdingS (holdOf (.resume 0x100000 0)) ((level 1).modCore 0 fun k => k.modW fun w => { w with carea := 2 ^ 40 })
     HoldOver 0 (holdOf (.resume 0x100000 0)) s ∧ ((s.sampleHold 0).restore 0 0x100000 0 (holdOf (.resume 0x100000 0)).ipc).2 = none) := by
  refine ⟨by decide +kernel, ?_, by decide +kernel⟩
  simp only [HoldOver]; decide +kernel

theorem test_syHoldEnd : ((after (exec (.syHoldEnd 0) (holding (.fence 0) user))).core 0).q.hold = none ∧
    ((after (exec (.syHoldEnd 0) (holding (.fence 0) user))).core 0).q.arr = [(3, 7)] := by decide +kernel
/-- R178: mps.swap makes the staging half the active one. -/
theorem test_mpsSwap :
    let s := (level 1).modMe fun k => k.modMx fun x => { x with smic := [(5, 9)], mic := [(1, 1)] }
    ((after (exec (.mpsSwap (syOp 0 0 0)) s)).core 0).mx.mic = [(5, 9)] := by decide +kernel
/-- R236: a suspended record waits on its barrier where PEND is not 0. -/
theorem test_suspend_waits :
    ((withBar 4 (barOf 1 3 true false) user).leave 0 .sySuspend (syOp 4 0 0) 0).d.recs.map (fun r => (r.st, r.wait)) = [(.waiting, .bar 4 true)] ∧
    (user.leave 0 .sySuspend (syOp 4 0 0) 0).d.recs.map (fun r => (r.st, r.wait)) = [(.runnable, .none)] ∧
    (user.leave 0 .syRetire (syOp 0 0 0) 0).d.recs = [] := by decide +kernel

/-! ### Layout changes -/

/-- A settled entry (R257): ROW of 64 by 64 i8 elements at 0x10000, CBAR 3. -/
def settledEntry : Nat := pack handleLayout [0x10000, 0, 63, 63, 0, 0, 1, 1, 0, 0, 1, 3, 0, 0, 0, 0, 0]
/-- The same in conversion to COL at 0x20000. -/
def convEntry : Nat := pack handleLayout [0x10000, 0x20000, 63, 63, 0, 0, 1, 1, 0, 1, 2, 3, 0, 0, 0, 0, 0]
/-- A user stream whose handle table at 0x4000 has one entry. -/
def withHandle (e : Nat) : State := sys (core0.modW fun w => { w with htb := 0x4001 }) (devM 0x4000 (bytesOf 64 e))
/-- A read handle. -/
def handleIn (s : State) : Option Handle :=
  match s.handle 0 0 with
  | .ok h => some h
  | _ => none
/-- A conversion in die 0's engine. -/
def convOf (padded : Bool) (g : Nat) : Conv := ⟨0, 0x4000, 0, 0, true, 0, 0, 0, 0, 0, padded, g, false, false, false, 0⟩
/-- The machine with that conversion. -/
def converting (v : Conv) (e : Nat) : State := (withHandle e).modD fun d => { d with seif := d.seif.set 0 [v] }
/-- A step of a conversion that is done; one that meets a fault. -/
def seifOk {α : Type} : Except Stuck α → Bool
  | .ok _ => true
  | _ => false
def seifBad {α : Type} : Except Stuck α → Bool
  | .error (.bad _) => true
  | _ => false

theorem test_witness_LayoutChanges :
    (handleIn (withHandle settledEntry)).map (fun h => (h.conv, h.tag, h.base, h.cbar, tagOk h.nd h.fmt 0, tagOk h.nd h.fmt 1)) =
      some (false, 0, 0x10000, 3, true, true) ∧
    (handleIn (withHandle convEntry)).map Handle.conv = some true ∧ (withHandle convEntry).me.rg.opened = false ∧
    Issues (.sy .layout (syOp 0 3 0x1000)) (withHandle settledEntry) ∧
    (let s := (withHandle settledEntry).modMe fun k => { k with r := { k.r with s := k.r.s.set 3 0x10000 } }
     Issues (.sy .layout (syOp 0 3 0)) s ∧ s.me.readS 3 = 0x10000) ∧
    ((handleIn (withHandle settledEntry)).map fun h => isOk ((withHandle settledEntry).beginConv 0 0 0 h 0x20000 1)) = some true ∧
    (∀ x ∈ [(false, 0), (true, 0), (true, 1)], let s := converting (convOf x.1 x.2) convEntry
      pickConv s.d.seif[0] = some (convOf x.1 x.2) ∧ s.d.ctx 0 = some placedCtx ∧ seifOk (s.convGet placedCtx (convOf x.1 x.2) 0x4000 64) = true ∧
      (handleIn s).map (fun h => (h.conv, h.grid.2.2)) = some (true, 1)) ∧
    (handleOf 0x4000 convEntry).isSome = true := by
  refine ⟨by decide +kernel, by decide +kernel, by decide +kernel, issues_of (by decide +kernel), ⟨issues_of (by decide +kernel), by decide +kernel⟩,
    by decide +kernel, by decide +kernel, by decide +kernel⟩

/-- The entry's page may not be written; it is locked by a move. -/
theorem test_witness_LayoutChanges_faults :
    (let s := (withHandle settledEntry).modD fun d => d.rawWrite 0 0x40001000 (bytesOf 8 (pack pteLayout [1, 1, 0, 0, 1, 3, 0, 1, 0, 0, 1]))
     Issues (.sy .layout (syOp 0 3 0x1000)) s ∧ s.layoutLate 0 (syOp 0 3 0x1000) = false ∧
     (handleIn s).map (fun h => (h.conv, isOk (s.beginConv 0 0 0 h 0 1))) = some (false, false)) ∧
    (let s := (withHandle settledEntry).modD fun d => { d with moving := [0] }
     Issues (.sy .layout (syOp 0 3 0x1000)) s ∧ s.layoutLate 0 (syOp 0 3 0x1000) = true) ∧
    (let s := converting (convOf true 1) convEntry
     pickConv s.d.seif[0] = some (convOf true 1) ∧ (s.d.convCar (convOf true 1)).isSome = true ∧
     ((s.modD fun d => { d with cars := [] }).d.convCar (convOf true 1)) = none) :=
  ⟨⟨issues_of (by decide +kernel), by decide +kernel, by decide +kernel⟩, ⟨issues_of (by decide +kernel), by decide +kernel⟩, by decide +kernel⟩

theorem test_witness_SeifFaultDelivery :
    (let s := user.modCore 0 fun k => { k with seif := some (0, 0x10000) }
     (s.core 0).seif = some (0, 0x10000) ∧ (s.core 0).atBoundary = true ∧ (s.core 0).w.pl = 0 ∧ (s.core 0).firstFault = none) ∧
    (user.modD fun d => { d with refresh := 0xFC00 }).d.refresh.toNat % 65536 = 1024 * (63 : Fin 64).val ∧ (2 ^ 30 - 1) / 16384 % 64 = (63 : Fin 64).val := by
  decide +kernel

/-- R263: a conversion's last step settles its entry and arrives at its barrier. -/
theorem test_granule_settles :
    let t := after (exec (.granuleStep 0) (converting (convOf true 1) convEntry))
    t.d.seif[0] = [] ∧ (handleIn t).map (fun h => (h.conv, h.base, h.tag)) = some (false, 0x20000, 1) ∧ (t.bar 0 3).broken = true := by decide +kernel
theorem test_layout_same :
    let s := (withHandle settledEntry).modMe fun k => { k with r := { k.r with s := k.r.s.set 3 0x10000 } }
    ((after (exec (.layout (syOp 0 3 0)) s)).core 0).q.pend.map Pend.arr = [some 3] := by decide +kernel

/-! ### User interrupts, stops and resume -/

/-- A user stream with an interrupt held. -/
def raised (uiv : BitVec 48) : State := userWith fun k => (k.modQ fun q => { q with ui := [0x1234] }).modW fun w => { w with uiv := uiv }

theorem test_witness_UserInterrupts :
    (∀ v ∈ [(0 : BitVec 48), 0x600], let k := (raised v).core 0
      k.q.ui = 0x1234 :: [] ∧ k.atBoundary = true ∧ k.stopPending = false ∧ k.w.pl = 0 ∧ k.w.uih = false ∧ k.f.next = none ∧ k.w.uiv = v ∧ k.w.ovp = k.w.ovb ∧
      k.w.flo.toNat + 16 ≤ k.w.fsp.toNat) ∧
    Issues (.alu .uiret (sample .uiret)) handler ∧ (handler.me.q.ui = [] ∧ ¬ handler.me.w.ovb < handler.me.w.ovp ∧
      handler.me.w.fsp.toNat + 16 ≤ handler.me.w.fhi.toNat) ∧
    (let s := handler.modMe fun k => k.modQ fun q => { q with ui := [5] }
     Issues (.alu .uiret (sample .uiret)) s ∧ s.me.q.ui = 5 :: []) ∧
    (let s := handler.modMe fun k => k.modW fun w => { w with ovb := 0x1000, ovp := 0x1010 }
     Issues (.alu .uiret (sample .uiret)) s ∧ s.me.q.ui = [] ∧ s.me.w.ovb < s.me.w.ovp) := by
  refine ⟨?_, issues_of (by decide +kernel), by decide +kernel, ⟨issues_of (by decide +kernel), by decide +kernel⟩,
    ⟨issues_of (by decide +kernel), by decide +kernel, by decide +kernel⟩⟩
  intro v h
  simp only [List.mem_cons, List.not_mem_nil, or_false] at h
  rcases h with rfl | rfl <;> decide +kernel

theorem test_witness_UserInterrupts_leave :
    (after (exec (.uiret (sample .uiret)) handler)).me.f.leave = some 0 := by decide +kernel

theorem test_userInterrupt :
    let k := (after (exec (.userInterruptDelivery 0) (raised 0x600))).core 0
    k.f.pc = 0x600 ∧ k.w.uih = true ∧ k.w.uis = 0x1234 ∧ k.w.fsp = 0x7F0 ∧ k.q.ui = [] := by decide +kernel
theorem test_userInterrupt_lost :
    let k := (after (exec (.userInterruptDelivery 0) (raised 0))).core 0
    k.w.flags = flagUilost ∧ k.w.uih = false ∧ k.q.ui = [] := by decide +kernel
/-- R138: UIH stays 1 to the end of the cycle of uiret. -/
theorem test_uiret :
    let s := after (exec (.uiret (sample .uiret)) (handler.modCore 0 fun k => k.modM fun m => { m with spad := [(0x800, 0x40)] }))
    let k := (s.nextCycle 0).core 0
    (s.core 0).w.uih = true ∧ k.f.pc = 0x40 ∧ k.w.uih = false ∧ k.w.fsp = 0x810 := by decide +kernel

/-- An entry that a fault has met. -/
def faultedEntry : QEnt := { entry .ld .loc 0x60000 8 0 with fault := some ⟨.protection, 4, 0x60000⟩ }
/-- Core 0 with a region open and its slice gone, or a stop asked for. -/
def regionStop (unbuf expired preempt : Bool) (opened : Bool) : State := userWith fun k =>
  { k with rg := { Region.reset with opened := opened, unbuf := unbuf }, expired := expired, preempt := preempt }

/-- A user stream whose page is one of a reduction window. -/
def offDev (g : Core → Core) : State :=
  sys (g core0) ((devM 0 []).rawWrite 0 0x40001000 (bytesOf 8 (pack pteLayout [1, 1, 1, 0, 1, 3, 1, 1, 0, 0, 1])))

/-- A record's bytes: a result with nothing else, four cycles to go, for a kind and a unit. -/
def recBytes (kind unit w3 : Nat) : List Byte :=
  bytesOf 8 (pack [4, 4, 6, 1, 1, 12, 4, 32] [kind, unit, 0, 0, 0, 4, 0, 0xFFFFFFFF]) ++ bytesOf 8 0 ++ bytesOf 8 0 ++ bytesOf 8 w3 ++ List.replicate 32 0
/-- A supervisor stream with those bytes at 0x4000. -/
def recordAt (bs : List Byte) : State := supM 1 0 0 0x4000 bs
/-- Whether the record there is read, and whether it passes. -/
def recordRead (bs : List Byte) : Option (Option Bool) :=
  let s := recordAt bs
  let v := s.noteVa 0 0 .read 0x4000 64
  match s.ctxOf 0, v.readVa 0 .read 3 0x4000 64 with
  | some x, .ok b =>
    let u := v.notePa 0 0 0x40100000 0x24000
    let poison := (u.xlate 0 0x4000 .read).toOption.any fun p => u.d.memPoisoned p.pa 64
    if v.d.areaOk x 0x40100000 729088 && v.ownCluster 0 x && !v.d.gone 0x40100000 0x24000 then
      some ((Rec.ofBytes ((s.core 0).f.seq + 1) (b.take 64) ((u.d.areaRead x 0x40100000 0x24000).drop 0x14000) poison).map fun r => r.ok (s.core 0))
    else none
  | _, _ => none

/-- A list of one record: one that passes R359, one that is read and fails, one that cannot be read. -/
theorem test_witness_RecordsAreReissued :
    ((recordAt []).core 0).w.carea = 0x40100000 ∧ recordRead (recBytes 1 0 24) = some (some true) ∧ recordRead (recBytes 1 5 24) = some (some false) ∧
    recordRead (recBytes 8 0 24) = some none := by decide +kernel

/-- A stream can be put aside; its area is lost; a function whose text the area is over; a region open on it. -/
theorem test_witness_StopsAndResumes_stop :
    Stoppable 0 placedCtx user ∧ TextApart user (user.core 0).w.carea.toNat 0x24000 ∧
    (let s := (level 1).modD fun d => { d with lost := [0x4011] }
     s.d.areaOk placedCtx 0x40100000 729088 = true ∧ s.ownCluster 0 placedCtx = true ∧ s.d.gone 0x40100000 0x24000 = true) ∧
    (let s := user.modD fun d => d.modFn 0 fun x => { x with iface := .run, svec := 0x40100000, stlen := 0x1000 }
     Stoppable 0 placedCtx s ∧ s.d.fns[(0 : FnId)].iface = .run ∧ (s.core 0).w.carea.toNat < s.d.fns[(0 : FnId)].svec.toNat + s.d.fns[(0 : FnId)].stlen.toNat ∧
     s.d.fns[(0 : FnId)].svec.toNat < (s.core 0).w.carea.toNat + 0x24000) ∧
    (let v := (inRegion.sampleCut 0).commitRegion 0
     (inRegion.core 0).rg.opened = true ∧ v.2 = none ∧ Stoppable 0 placedCtx v.1 ∧ TextApart v.1 (v.1.core 0).w.carea.toNat 0x24000) ∧
    (let k := (raised 0x600).core 0
     ({ k with f := { k.f with next := some addBundle } } : Core).atBoundary = true) := by
  unfold Stoppable TextApart
  refine ⟨by decide +kernel, by decide +kernel, by decide +kernel, by decide +kernel, by decide +kernel, by decide +kernel⟩

theorem test_witness_StopsAndResumes :
    (let k := (queued faultedEntry).core 0
     k.w.pl = 0 ∧ k.atBoundary = true ∧ k.firstFault.isSome = true ∧ k.f.brk = none) ∧
    (let k := ((queued faultedEntry).modCore 0 fun k => { (k.modW fun w => { w with pl := 1 }) with sup := true }).core 0
     k.w.pl ≠ 0 ∧ k.atBoundary = true ∧ k.firstFault.isSome = true) ∧
    (∀ o ∈ [true, false], ∀ u ∈ [true, false], let k := (regionStop u true true o).core 0
      k.atBoundary = true ∧ k.w.pl = 0 ∧ k.firstFault = none ∧ k.seif = none ∧ k.restartWaits = false ∧ k.expired = true ∧ k.preempt = true ∧ k.rg.opened = o ∧ k.rg.unbuf = u) ∧
    (level 1).d.areaOk placedCtx 0x40100000 729088 = true ∧ (level 1).ownCluster 0 placedCtx = true ∧
    (level 1).d.areaOk placedCtx (2 ^ 40) 729088 = false ∧
    (level 1).ctxOf 0 = some placedCtx ∧ ((level 1).core 0).w.carea.toNat = 0x40100000 := by decide +kernel

theorem test_witness_StopsAndResumes_timeout :
    (let e := entry .ld .glob 0x40 8 0
     let s := offDev fun k => k.modQ fun q => { q with ld := [e] }
     ((s.core 0).q.ld ++ (s.core 0).q.st ++ (s.core 0).q.at_).find? (fun x => x.seq == e.seq && x.fault.isNone && x.ret == .none) = some e ∧
     s.offDevice 0 0x40 = true ∧ s.offEntry 0 e = some 0x40) ∧
    (let m := callAt 0 true
     let s := offDev fun k => (k.modF fun f => { f with at_ := .after }).modMx fun x => { x with
       q := [m], mic := [(0, encodeMicro (.mma .ph { mma with space := .glob }))] }
     ((s.core 0).q.ld ++ (s.core 0).q.st ++ (s.core 0).q.at_).find? (fun x => x.seq == m.seq && x.fault.isNone && x.ret == .none) = none ∧
     (s.core 0).q.cp.find? (fun x => x.seq == m.seq && x.fault.isNone && x.begun) = none ∧ (s.core 0).mx.q = m :: [] ∧ m.fault = none ∧
     m.rowFault = none ∧ m.fin = false ∧ s.offCall 0 m = some 0) := by
  refine ⟨by decide +kernel, by decide +kernel⟩

theorem test_executionFault :
    let k := (after (exec (.executionFaultStop 0) (queued faultedEntry))).core 0
    k.w.cause.toNat % 64 = 0x07 ∧ k.w.cause.toNat / 64 % 8 = 4 ∧ k.w.cdata = 0x60000 ∧ k.w.pl = 1 := by decide +kernel
theorem test_supervisorCause :
    let s := (queued faultedEntry).modCore 0 fun k => { (k.modW fun w => { w with pl := 1, svec := 0x1000 }) with sup := true }
    ((after (exec (.supervisorCause 0) s)).core 0).f.pc = 0x1040 := by decide +kernel
theorem test_sliceExpiry :
    ((after (exec (.sliceExpiry 0) (regionStop false true false false))).core 0).w.cause.toNat % 64 = 0x15 ∧
    ((after (exec (.sliceExpiry 0) (regionStop true true false true))).core 0).w.cause.toNat % 64 = 0x10 ∧
    ((after (exec (.sliceExpiry 0) (regionStop false true false true))).core 0).q.hold.map Hold.kind = some .restart := by decide +kernel
theorem test_preempt : ((after (exec (.preempt 0) (regionStop false false true false))).core 0).w.cause.toNat % 64 = 0x15 := by decide +kernel

/-! ### Launches, selection and the dispatcher's registers -/

/-- A user stream, and the device with queue 0 as given. -/
def withQueue (x : LQueue) : State := user.modD fun d => { d with qs := d.qs.set 0 x }
/-- A queue of function 0 and context 0 that takes launches. -/
def readyQueue : LQueue := { LQueue.reset with en := true }
/-- A committed record. -/
def pendingRec (n : Nat) : Pending := ⟨BitVec.ofNat 1024 n, 0, 0, 0, false⟩
/-- A user stream with function 0 changed. -/
def withFn (g : Fn → Fn) : State := user.modD fun d => d.modFn 0 g

theorem test_witness_LaunchRecordsCommit_order : InTurn 0 0 (withQueue readyQueue) ∧ InTurn 0 16 (withQueue readyQueue) ∧
    InTurn 0 1 (withQueue readyQueue) ∧ ¬ InTurn 0 0 (Turn 0 1 (withQueue readyQueue)) ∧
    (∀ p : Fin 16, InTurn 0 (p.val + 2) (Turn 0 1 (withQueue readyQueue))) ∧ ¬ InTurn 0 2 (Turn 0 3 (withQueue readyQueue)) := by
  simp only [InTurn, Turn]; decide +kernel

/-- A function-level reset of function 0 under way. -/
def resetting (s : State) : State := s.modD fun d => { d with flr := [0] }

theorem test_witness_functionLevelReset :
    (resetting user).inFlr 0 = true ∧ user.inFlr 0 = false ∧ (resetting user).d.qs[(0 : Fin 64)].fn = 0 := by decide +kernel

theorem test_witness_LaunchRecordsCommit :
    (withQueue readyQueue).takesLaunches 0 0 = true ∧ rejectReason (withQueue readyQueue).d 0 0 = none ∧
    rejectReason user.d 0 0 = some 6 ∧ user.takesLaunches 0 0 = true ∧ field (0 : BitVec 1024).toNat 576 64 = 0 ∧
    rejectReason (withQueue { readyQueue with recs := List.replicate 32 (pendingRec 0) }).d 0 0 = some 7 ∧
    rejectReason (withQueue readyQueue).d 0 (BitVec.twoPow 1024 48) = some 1 ∧
    rejectReason (withQueue { readyQueue with recs := List.replicate 31 (pendingRec 0) }).d 0 0 = none ∧
    tabGet (withQueue readyQueue).d.fns[(0 : FnId)].halves 0 = none ∧
    (let s := (withQueue readyQueue).modD fun d => d.modFn 0 fun x => { x with halves := [(0, 0)] }
     s.takesLaunches 0 0 = true ∧ tabGet s.d.fns[(0 : FnId)].halves 0 = some 0 ∧
     rejectReason (s.modD fun d => d.modFn 0 fun y => { y with halves := tabDel y.halves 0 }).d 0 (BitVec.ofNat 1024 0) = none) ∧
    user.takesLaunches 1 0 = false ∧ (withFn fun x => { x with iface := .error }).takesLaunches 0 0 = false ∧
    (let s := withQueue { readyQueue with erg := true }
     s.d.qs[(0 : Fin 64)].erg = true ∧ s.takesLaunches s.d.qs[(0 : Fin 64)].fn 0 = true ∧ rejectReason s.d 0 0 = none) ∧
    (withQueue readyQueue).d.qs[(0 : Fin 64)].erg = false := by decide +kernel

/-- R321: a record with a reserved bit is rejected, and its failure word goes where bits 639:576 say (R326). -/
theorem test_launch :
    (after (exec (.launchRecordWrite 0 0 0x80) (withQueue readyQueue))).d.qs[(0 : Fin 64)].recs.map Pending.rec_ = [0x80] ∧
    (after (exec (.launchRecordWrite 0 0 (BitVec.twoPow 1024 48)) (withQueue readyQueue))).d.qs[(0 : Fin 64)].err = true := by decide +kernel
theorem test_launch_halves :
    let s := after (exec (.launchHalfWrite 0 0 false 0x80) (withQueue readyQueue))
    (after (exec (.launchHalfWrite 0 0 true 0) s)).d.qs[(0 : Fin 64)].recs.map Pending.rec_ = [0x80] := by decide +kernel
theorem test_badLaunch :
    (after (exec (.badLaunchWrite 1 0) user)).d.fns[(0 : FnId)].err.getLsbD 6 = true ∧
    (after (exec (.badLaunchWrite 0 0) user)).d.qs[(0 : Fin 64)].err = true := by decide +kernel
theorem test_ergLaunch :
    (after (exec (.ergLaunchMessage 3 0 0x80) (withQueue readyQueue))).d.qs[(0 : Fin 64)].recs = [] ∧
    (after (exec (.ergLaunchMessage 3 0 0x80) (withQueue { readyQueue with erg := true }))).d.qs[(0 : Fin 64)].recs.length = 1 := by
  decide +kernel

/-- A kernel image at 0 with no text, no control words and no routines, in a page of X and U (R322). -/
def imageBytes : List Byte :=
  bytesOf 128 (pack headerLayout [0x5452414C, 0, 1, 1, 0, 128, 4, 0x100, 1, 0, 0x200, 0, 0, 0xA00, 0, 0]) ++ List.replicate 128 0
  ++ bytesOf 32 0x07077101
/-- A device with that image whose queue 0 holds the record of its launch, and no caravan. -/
def imageDev : Dev :=
  let d := devM 0 imageBytes
  { (d.rawWrite 0 0x40001000 (bytesOf 8 (pack pteLayout [1, 0, 0, 1, 1, 3, 0, 1, 0, 0, 1]))) with
    qs := d.qs.set 0 { readyQueue with recs := [pendingRec (2 ^ 121)] }
    slots := d.slots.set 0 ⟨0, 0, 1, 0, true⟩
    tags := [], keys := [(0, ⟨none, true, .slot0⟩), (1, ⟨some 0, false, .slot0⟩)]
    cars := [], recs := [] }
/-- The machine with it. -/
def imageState : State := sys Core.reset (imageDev)

/-- Core 0 idle, with a record that it may run. -/
def idleWith (bound : Bool) (r : CRec) : State :=
  sys { core0 with run := none, car := if bound then some 0 else none } { dev0 with recs := [r] }
/-- A runnable record. -/
def runnable : CRec := { placedRec 0 with st := .runnable, pc := 0x80, s := #v[1, 2, 3, 4, 5] }
/-- A caravan with nothing left, its completion word 7 at an address. -/
def doneCar (addr : Nat) : Caravan := { placedCar 0 with rec_ := BitVec.ofNat 1024 (addr * 2 ^ 576 + 7 * 2 ^ 640 + 2 ^ 704) }
/-- Its state. -/
def doneState (addr : Nat) : State := sys { core0 with run := none } { devM 0x200 (bytesOf 8 1) with cars := [doneCar addr], recs := [] }

/-- The queue that is admitted next; the record that core 0 selects. -/
def admits (s : State) : Option (Fin 64) := s.nextAdmit.map Prod.fst
def picks (s : State) : Option CRec := (s.select 0).map Prod.fst

theorem natOf_zeros (k : Nat) : natOf (List.replicate k 0) = 0 := by
  induction k with
  | zero => rfl
  | succ k ih => rw [List.replicate_succ, natOf, ih]; rfl
theorem wordsOf_zeros (w n c k : Nat) : wordsOf w n c (List.replicate k 0) = List.replicate c 0 := by
  simp only [wordsOf, List.drop_replicate, List.take_replicate, natOf_zeros, List.map_const', List.length_range]
  rfl
/-- Where n bytes of the image from an address lie. -/
def imageAt (va n : Nat) : Except Stuck (List (Place × Nat)) := .ok [(⟨va, ⟨.slot0, some 0⟩, 1, 3, false, 2 ^ 30 - va⟩, n)]
theorem image_get {s : State} {x : Ctx} {va n : Nat} (p : s.d.placesConv x true .fetch 3 va n = imageAt va n) :
    s.imageGet x va n = .ok (s.d.readMem ⟨.slot0, some 0⟩ va n) := by
  unfold State.imageGet
  rw [p]
  simp only [imageAt, List.flatMap_cons, List.flatMap_nil, List.append_nil]
theorem image_read {s : State} {x : Ctx} {hd tx cw ro : List Byte} {ws : List W64} (g0 : s.imageGet x 0 128 = .ok hd)
    (hp : imageParts 0 hd = some [(128, 4), (256, 32), (512, 2048), (2560, 0), (2560, 0)]) (g1 : s.imageGet x 128 4 = .ok tx)
    (g2 : s.imageGet x 256 32 = .ok cw) (g3 : s.imageGet x 512 2048 = .ok ro) (n : ro.length = 2048) (v : wordsOf 64 8 256 ro = ws)
    (f : field (natOf hd) 48 1 = 1 ∧ field (natOf hd) 40 8 = 1 ∧ field (natOf hd) 32 8 = 0 ∧ field (natOf hd) 64 32 = 128)
    (w : wordsOf 256 32 1 cw = [0x07077101]) (l : cw.length = 32) (e : storeFails (Sparse.write [] 0 ws) [] = none) :
    s.readImage x 0 = .ok ⟨true, 1, 0, 128, [(0, 0x07077101)], Sparse.write [] 0 ws, []⟩ := by
  have z : ∀ a, s.imageGet x a 0 = .ok [] := fun _ => rfl
  have m : ([(128, 4), (256, 32), (512, 2048), (2560, 0), (2560, 0)] : List (Nat × Nat)).mapM (fun p => s.imageGet x p.1 p.2) =
      (.ok [tx, cw, ro, [], []] : Except (Option Nat) _) := by
    simp only [List.mapM_cons, List.mapM_nil, bind, Except.bind, g1, g2, g3, z, pure, Except.pure]
  unfold State.readImage
  simp only [bind, Except.bind, g0, hp, m, n, l, Nat.reduceDiv, v, w, f, List.length_nil, Nat.zero_add]
  simp only [wordsOf, List.range_zero, List.map_nil, List.foldl_nil, show (Sparse.write ([] : Sparse 64) 0 []) = [] from rfl, e, Option.isSome_none,
    Bool.false_eq_true, if_false, pure, Except.pure]
  rfl
theorem admit_of {s : State} {q : Fin 64} {r : BitVec 1024} {x : Ctx} {im : KernelImage} (h : (s.d.ctx s.d.qs[q].ctx).filter (fun x => x.fn == s.d.qs[q].fn) = some x)
    (f : field r.toNat 0 48 = 0) (i : s.readImage x 0 = .ok im) (m : s.d.fns[x.fn].mask.getLsbD 7 = false) (v : im.major = 1 ∧ im.minor = 0) :
    isOk (s.admitImage q r) = true := by
  unfold State.admitImage
  rw [h]
  simp only [f, i, m, v, bind, Except.bind, isOk, pure, Except.pure, Bool.and_false, Bool.false_eq_true, if_false, ne_eq, not_true, Nat.lt_irrefl, or_self]
theorem image_admitted : isOk (imageState.admitImage 0 (pendingRec (2 ^ 121)).rec_) = true :=
  admit_of (x := placedCtx) (by decide +kernel) (by decide +kernel)
    (image_read (image_get (ok_of (by decide +kernel))) (by decide +kernel) (image_get (ok_of (by decide +kernel))) (image_get (ok_of (by decide +kernel)))
      (image_get (ok_of (by decide +kernel))) (by decide +kernel) rfl (by decide +kernel) (by decide +kernel) (by decide +kernel) (by decide +kernel))
    (by decide +kernel) ⟨rfl, rfl⟩

theorem test_witness_CaravansLive_admission :
    (∀ q, imageState.d.headAged q = false) ∧ admits imageState = some 0 ∧ imageState.d.qs[(0 : Fin 64)].recs = pendingRec (2 ^ 121) :: [] ∧
      isOk (imageState.admitImage 0 (pendingRec (2 ^ 121)).rec_) = true := by
  refine ⟨by decide +kernel, by decide +kernel, by decide +kernel, image_admitted⟩

theorem test_witness_CaravansLive :
    (let s := (withQueue { readyQueue with recs := [pendingRec (2 ^ 121)] }).modD fun d => { d with tick := 2 ^ 20 }
     s.d.headAged 0 = true ∧ s.d.qs[(0 : Fin 64)].recs = pendingRec (2 ^ 121) :: []) ∧
    (let x := { placedCar 0 with next := 0 }
     let s := user.modD fun d => { d with cars := [x] }
     s.d.car 0 = some x ∧ 0 < x.unexpanded ∧ s.d.poolCount (x.record 0 s.d.nid s.d.tick).hclu (x.record 0 s.d.nid s.d.tick).stage < 3072) ∧
    (0 < (extents (placedCar 0).rec_).2.1 ∧ 0 < (extents (placedCar 0).rec_).2.2) := by
  refine ⟨by decide +kernel, by decide +kernel, by decide +kernel⟩

theorem done_state (a : Nat) : (doneState a).caravanDone (doneCar a) = ((doneCar a).unexpanded == 0) := by
  unfold State.caravanDone
  have h : ((List.finRange 320).all fun c => let k := (doneState a).core c
      k.car != some (doneCar a).id || (k.q.cp.isEmpty && k.q.sh.isEmpty && k.q.st.isEmpty && k.q.at_.isEmpty && k.run.isNone)) = true := by
    rw [List.all_eq_true]
    intro c _
    simp only [doneState, sys_core]
    split <;> rfl
  simp only [h, Bool.and_true]
  show ((doneCar a).unexpanded == 0 && List.all [] _) = _
  simp

/-- A state in which a completion word for queue 0 can be written. -/
def wordState : State := sys core0 (devM 0 [])

theorem test_witness_CaravansLive_word :
    wordState.d.ctx wordState.d.qs[(0 : Fin 64)].ctx = some placedCtx ∧ placedCtx.fn = wordState.d.qs[(0 : Fin 64)].fn ∧
    isOk (wordState.d.translate placedCtx noPage.toNat .write false) = false ∧
    (match wordState.d.translate placedCtx 0x200 .write false with
     | .ok p => decide (p.pa = 0x200 ∧ p.key.key = .random 0) && !wordState.d.gone p.pa 8 && !wordState.d.locked p.pa 8
     | _ => false) = true ∧
    (wordState.modD fun d => { d with moving := [0] }).d.locked 0x200 8 = true ∧ TextApart wordState 0x200 8 := by
  refine ⟨by decide +kernel, by decide +kernel, by decide +kernel, by decide +kernel, by decide +kernel, ?_⟩
  simp only [TextApart]; decide +kernel

/-- R326: a completion address that is not a multiple of 8 leaves the queue's ERR and ERR bit 1 of its function. -/
theorem test_completion_misaligned :
    (wordState.completeWrite 0 0x204 7).map (fun t => (t.d.qs[(0 : Fin 64)].err, t.d.fns[(0 : FnId)].err.getLsbD 1)) = some (true, true) := by
  decide +kernel

theorem test_witness_CaravansLive_end (a : Nat) (h : a = 0 ∨ a = 0x200) :
    (doneState a).d.car 0 = some (doneCar a) ∧ (doneState a).caravanDone (doneCar a) = true ∧
    ((doneState a).completeWrite (doneCar a).queue (field (doneCar a).rec_.toNat 576 64) (field (doneCar a).rec_.toNat 640 64)).isSome = true := by
  rw [done_state]
  rcases h with rfl | rfl <;> decide +kernel

/-- R324, R326: an image whose page is not mapped fails with reason 2. -/
theorem test_admission :
    let r := BitVec.ofNat 1024 (2 ^ 40 + 2 ^ 121 + 0x200 * 2 ^ 576)
    let s := (sys Core.reset { devM 0x200 (bytesOf 8 1) with
      cars := [], recs := [], qs := dev0.qs.set 0 { readyQueue with recs := [⟨r, 0, 0, 0, false⟩] }, slots := dev0.slots.set 0 ⟨0, 0, 1, 0, true⟩ })
    let t := after (exec .admission s)
    t.d.qs[(0 : Fin 64)].recs = [] ∧ t.d.qs[(0 : Fin 64)].err = true ∧ t.d.readMem ⟨.random 0, some 0⟩ 0x200 8 = bytesOf 8 (2 ^ 63 + 2) := by decide +kernel
theorem test_admissionEscalation :
    let s := (withQueue { readyQueue with recs := [pendingRec (2 ^ 121)] }).modD fun d => { d with tick := 2 ^ 20 }
    (after (exec (.admissionEscalation 0) s)).d.qs[(0 : Fin 64)].recs.map Pending.aged = [true] := by decide +kernel
theorem test_recordExpansion :
    (after (exec (.recordExpansion 0) (user.modD fun d => { d with cars := [{ placedCar 0 with next := 0, ent := 0x80 }], recs := [] }))).d.recs.map
      (fun r => (r.pc.toNat, r.s[4].toNat, r.hclu, r.hpos)) = [(0x80, 0, 0, 0)] := by decide +kernel
/-- R330: a launch of span 2 with pin 3 and K = 2: its fifth record of that row has k 1 and the next position. -/
theorem test_record :
    let r : BitVec 1024 := BitVec.ofNat 1024 (1 * 2 ^ 80 + 1 * 2 ^ 96 + 3 * 2 ^ 116 + 2 * 2 ^ 120)
    let y := ({ placedCar 0 with rec_ := r } : Caravan).record 3 9 0
    (y.d, y.c, y.k, y.hpos, y.s[4].toNat) = (0, 1, 1, 4, 2 ^ 16 + 1) := by decide +kernel
/-- R326: the completion word is written through the context's tree. -/
theorem test_caravanEnd : ((doneState 0x200).completeWrite 0 0x200 7).map (fun t => t.d.readMem ⟨.random 0, some 0⟩ 0x200 8) = some (bytesOf 8 7) := by decide +kernel

theorem test_witness_RecordsRun :
    (∀ b ∈ [true, false], picks (idleWith b runnable) = some runnable ∧ (idleWith b runnable).d.car 0 = some (placedCar 0) ∧
      (idleWith b runnable).d.ctx 0 = some placedCtx ∧ runnable.area = none ∧ (idleWith b runnable).canTake 0 runnable = true) ∧
    (idleWith true runnable).boundCar 0 = some 0 ∧ (idleWith false runnable).boundCar 0 = none ∧
    (let r := { runnable with area := some 0x100000 }
     picks (idleWith true r) = some r ∧ (idleWith true r).d.ctx r.ctx = some placedCtx ∧ r.area = some 0x100000 ∧ (idleWith true r).canTake 0 r = true ∧
     (idleWith true r).d.areaOk placedCtx 0x100000 729088 = true ∧ (idleWith true r).d.gone 0x100000 0x24000 = false ∧
     (idleWith true r).d.areaOk placedCtx (2 ^ 40) 729088 = false) ∧ (idleWith false runnable).shareOver 0 = false ∧
    (let r := { placedRec 0 with st := .waiting }
     (idleWith true r).d.crec 0 = some r ∧ r.st = .waiting ∧ (idleWith true r).d.condMet (idleWith true r).lineFull (fun q => (idleWith true r).releaseOpen q.skip q.core q.before) r = true) ∧
    (let s := (idleWith true runnable).modD fun d => { d with tick := 2 ^ 20 }
     s.d.crec 0 = some runnable ∧ runnable.st = .runnable ∧ runnable.since + 2 ^ 20 ≤ s.d.tick) := by
  refine ⟨by decide +kernel, by decide +kernel, by decide +kernel, by decide +kernel, by decide +kernel, by decide +kernel, by decide +kernel⟩

theorem test_recordSelection :
    let k := (after (exec (.recordSelection 0) (idleWith true runnable))).core 0
    k.run = some 0 ∧ k.f.pc = 0x80 ∧ k.r.s[4] = 5 ∧ k.w.fsp = 0x1000 := by decide +kernel
theorem test_parkedRecordSelect :
    let s := (idleWith true { runnable with area := some 0x100000 }).modD fun d => d.modFn 0 fun x => { x with svec := 0x1000 }
    let k := (after (exec (.parkedRecordSelect 0) s)).core 0
    k.f.pc = 0x1000 ∧ k.w.pl = 1 ∧ k.w.cause = 0 ∧ k.sup = true := by decide +kernel
theorem test_recordWake :
    (after (exec (.recordWake 0) (idleWith true { placedRec 0 with st := .waiting }))).d.recs.map CRec.st = [.runnable] := by decide +kernel
theorem test_recordEscalation :
    (after (exec (.recordEscalation 0) ((idleWith true runnable).modD fun d => { d with tick := 2 ^ 20 }))).d.recs.map CRec.st = [.escalated] := by
  decide +kernel

/-- A slot register. -/
def slotWord (minbw dw : Nat) (valid : Bool) : W64 := BitVec.ofNat 64 (pack [10, 8, 8, 3, 1] [minbw, 0, dw, 0, bit valid])

theorem test_witness_DispatcherRegisters :
    user.d.qs[(0 : Fin 64)].fn ≠ 1 ∧ (withFn fun x => { x with iface := .error }).d.fns[(0 : FnId)].iface = .error ∧
    (user.d.qs[(0 : Fin 64)].fn = 0 ∧ user.d.fns[(0 : FnId)].iface ≠ .error ∧ user.d.qs[(0 : Fin 64)].en = false ∧
      (withQueue readyQueue).d.qs[(0 : Fin 64)].recs = []) ∧
    (∀ x ∈ [(960, 0, true), (961, 1, true), (960, 1, true), (961, 0, false)],
      let v := slotWord x.1 x.2.1 x.2.2
      let y : MSlot := ⟨v.extractLsb' 0 10, v.extractLsb' 10 8, v.extractLsb' 18 8, (v.extractLsb' 26 3).toFin, v.getLsbD 29⟩
      let d := { user.d with slots := user.d.slots.set (0 : Fin 16) y }
      y.valid = x.2.2 ∧ (y.dw = 0 ↔ x.2.1 = 0) ∧ d.sumMin = if x.2.2 then x.1 else 0) ∧
    InTurn 0 0 user ∧ ¬ InTurn 0 0 (user.modD fun d => { d with ranks := [(0, 1)] }) ∧ (∀ m : Fin 16, InTurn (64 + user.d.slots[m].fn.val) 3 user) ∧ InTurn 64 3 user ∧
    (let share : List (Nat × Nat × Nat) := [(2, 256, 3), (6, 128, 1)]
     let pend : List (Nat × Nat) := [(2, 1024), (6, 2000), (16, 5)]
     pend.Pairwise (fun x y => x.1 < y.1) ∧ ((pend.filter fun c => c.1 != 16).map fun c => ((tabGet share c.1).map Prod.fst).getD 0).sum ≤ 960 ∧
     (∀ c ∈ pend.filter fun c => c.1 != 16, 1024 ≤ c.2)) := by
  simp only [InTurn]
  refine ⟨by decide +kernel, by decide +kernel, by decide +kernel, by decide +kernel, by decide +kernel, by decide +kernel, by decide +kernel, by decide +kernel, by decide +kernel⟩

/-- R317: a write of the binding register. -/
theorem test_queueBinding :
    (after (exec (.queueBindingWrite 0 0 0x5B3F) user)).d.qs[(0 : Fin 64)] = { LQueue.reset with en := true, prio := 7, slot := 3, erg := true, ctx := 5 } := by
  decide +kernel
theorem test_queueStatus :
    let s := withQueue { readyQueue with ovf := true, err := true }
    (after (exec (.queueStatusWrite 0 0 0x40) s)).d.qs[(0 : Fin 64)] = { readyQueue with err := true } := by decide +kernel
theorem test_modelSlot :
    (after (exec (.modelSlotWrite 3 (slotWord 960 1 true)) user)).d.slots[(3 : Fin 16)].minbw = 960 ∧
    (after (exec (.modelSlotWrite 3 (slotWord 961 1 true)) user)).d.slots[(3 : Fin 16)].valid = false := by decide +kernel
/-- R337: classes 2 and 6 with minima 256 and 128 and weights 3 and 1 share the 640 bursts left 480 to 160. -/
theorem test_allot :
    allot [(2, 256, 3), (6, 128, 1)] [(2, 5000), (6, 1024)] = [(2, 736), (6, 288)] ∧
    allot [(2, 256, 3), (6, 128, 1)] [(2, 5000), (6, 50)] = [(2, 974), (6, 50)] := by decide +kernel
/-- R412: a stack with 2 retired channels of 32 has 900 of each 960 bursts. -/
theorem test_minimumAt :
    let d := { dev0 with slots := dev0.slots.set 0 ⟨496, 0, 1, 0, true⟩ |>.set 1 ⟨464, 0, 1, 0, true⟩, hbm := dev0.hbm.set 0 ⟨3, [], 0, 0⟩ }
    (d.stackLoad 0, d.minimumAt 0 0, d.minimumAt 1 0) = ((30720, 28800), 465, 496) := by decide +kernel
theorem test_witness_patrol :
    ∀ u ∈ [0, 1022], let s := user.modD fun d => { d with bw := [(5, ⟨1, [], [], [], u⟩)] }
      (tabGet s.d.bw 5).map BwWin.patrol = some u ∧ u % 1024 < 1023 ∧
      (tabGet (after (exec (.bandwidthWindow 5) s)).d.bw 5).map BwWin.patrol = some (u + 1) := by decide +kernel

/-- R337, R408: with no traffic, a window serves the one unit that patrol reads. -/
theorem test_bandwidthWindow :
    let s := user.modD fun d => { d with slots := d.slots.set 0 ⟨512, 0, 1, 0, true⟩ }
    ((tabGet (after (exec (.bandwidthWindow 5) s)).d.bw 5).map fun w => (w.n, w.share.head?, w.served)) = some (1, some (0, 512, 0), [(16, 1)]) := by decide +kernel

/-! ### The mailbox -/

/-- Function 0 with its operands, two more key slots, a granule of the secure world, and nothing running. -/
def boxDev (opa opb : Nat) (i : Iface) : Dev :=
  { (dev0.modFn 0 fun x => { x with opa := BitVec.ofNat 64 opa, opb := BitVec.ofNat 64 opb, iface := i, spdm := [(7, 1), (8, 0)] }) with
    keys := dev0.keys ++ [(2, ⟨some 0, false, .random 1⟩), (3, ⟨some 0, true, .random 2⟩), (4, ⟨some 1, false, .random 3⟩)]
    grans := dev0.grans.set 2 ⟨some 0, true⟩ }
/-- The machine with it. -/
def box (opa opb : Nat) (i : Iface := .unlocked) : State := sys Core.reset (boxDev opa opb i)
/-- A function's CMD, STATUS and the vectors raised. -/
def ended (o : Host.Outcome State Fault Refusal) : Nat × Nat × List (FnId × Nat) :=
  ((after o).d.fns[(0 : FnId)].cmd.toNat, (after o).d.fns[(0 : FnId)].status.toNat, (after o).d.msix)

theorem takes_box (opa opb : Nat) (i : Iface) (h : i ≠ .error) : TakesCommand 0 (box opa opb i) := by
  refine ⟨h, ?_, rfl⟩
  show (0 : W64) ≠ 1
  decide

theorem names_box (opb : Nat) : NamesCtx 0 placedCtx (box 0 opb) := ⟨rfl, rfl⟩
theorem names_none : ∀ c, ¬ NamesCtx 0 c (box 9 0) := fun c h => by
  have e : (box 9 0).d.ctx ((box 9 0).d.fns[(0 : FnId)].opa.extractLsb' 0 12) = none := by decide +kernel
  rw [NamesCtx, e] at h
  exact absurd h.1 (by simp)

theorem test_witness_ContextAndKeyCommands :
    (∀ i ∈ [Iface.unlocked, .locked, .run], TakesCommand 0 (box 0 0 i)) ∧
    ((box (5 + 2 * 2 ^ 13) 0x40002000).d.ctx 5 = none ∧ (box 0 0).d.keySlot 2 = some ⟨some 0, false, .random 1⟩ ∧
      (∀ c ∈ (box 0 0).d.ctxs, c.tkey ≠ 2) ∧ (box 0 0).d.inGranules 0 (some false) 0x40002000 4096 = true) ∧
    ((box 0 0 .run).d.keySlot 3 = some ⟨some 0, true, .random 2⟩ ∧ (∀ c ∈ (box 0 0).d.ctxs, c.tkey ≠ 3) ∧
      (box 0 0 .run).d.inGranules 0 (some true) 0x80000000 4096 = true ∧ (box 0 0 .run).d.fns[(0 : FnId)].iface = .run) ∧
    (box 0 0).d.ctx 0 ≠ none ∧ (box 0 0).d.keySlot 9 = none ∧ (box 0 0).d.inGranules 0 (some false) 0x80000000 4096 = false ∧
    NamesCtx 0 placedCtx (box 0 0) ∧ (∃ r ∈ (box 0 0).d.recs, r.ctx = 0 ∧ r.st = .running) ∧
    (∀ r ∈ ((box 0 0).modD fun d => { d with recs := [runnable] }).d.recs, r.ctx = 0 → r.st ≠ .running) ∧
    (box 0 0).d.inGranules 0 (some false) 0x40200000 729088 = true ∧ (box 0 0).d.inGranules 0 (some false) 0x7FFFF000 729088 = false ∧
    ∀ c, ¬ NamesCtx 0 c (box 9 0) := by
  refine ⟨fun i h => takes_box 0 0 i (by simp at h; rcases h with rfl | rfl | rfl <;> decide), by decide +kernel, by decide +kernel,
    by decide +kernel, by decide +kernel, by decide +kernel, names_box 0, by decide +kernel, by decide +kernel, by decide +kernel, by decide +kernel, names_none⟩

theorem test_witness_KeyCommands :
    (∀ k ∈ [9, 2], (k : BitVec 12) ≠ 0 ∧ (∀ y, (box 0 0).d.keySlot k = some y → y.fn = some 0) ∧ (∀ c ∈ (box 0 0).d.ctxs, c.tkey ≠ k) ∧
      (box 0 0).d.fns[(0 : FnId)].stkey ≠ k) ∧
    (box 9 7 .run).d.fns[(0 : FnId)].iface = .run ∧
    takeMessage 7 (box 9 7 .run).d.fns[(0 : FnId)].spdm = some (1, [(8, 0)]) ∧ (1 : BitVec 512).extractLsb' 0 256 ≠ (1 : BitVec 512).extractLsb' 256 256 ∧
    takeMessage 8 (box 9 8 .run).d.fns[(0 : FnId)].spdm = some (0, [(7, 1)]) ∧ (0 : BitVec 512).extractLsb' 0 256 = (0 : BitVec 512).extractLsb' 256 256 ∧
    takeMessage 9 (box 9 9 .run).d.fns[(0 : FnId)].spdm = none ∧
    (∃ y, (box 4 0).d.keySlot 4 = some y ∧ y.fn ≠ some 0) ∧ (∃ c ∈ (box 1 0).d.ctxs, c.tkey = 1) ∧
    (box 1 0).d.keySlot 1 = some ⟨some 0, false, .random 0⟩ ∧ (box 2 0).d.keySlot 2 = some ⟨some 0, false, .random 1⟩ ∧
    (box 9 0).d.keySlot 9 = none := by
  refine ⟨?_, by decide +kernel, by decide +kernel, by decide +kernel, by decide +kernel, by decide +kernel, by decide +kernel,
    ⟨⟨some 1, false, .random 3⟩, by decide +kernel, by decide⟩, by decide +kernel, by decide +kernel, by decide +kernel, by decide +kernel⟩
  intro k h
  simp only [List.mem_cons, List.not_mem_nil, or_false] at h
  have e9 : (box 0 0).d.keySlot 9 = none := by decide +kernel
  have e2 : (box 0 0).d.keySlot 2 = some ⟨some 0, false, .random 1⟩ := by decide +kernel
  rcases h with rfl | rfl
  · exact ⟨by decide, fun y h => absurd (e9.symm.trans h) (by simp), by decide +kernel, by decide +kernel⟩
  · exact ⟨by decide, fun y h => by rw [e2] at h; obtain rfl := Option.some.inj h; rfl, by decide +kernel, by decide +kernel⟩

theorem test_ctxCreate :
    let t := after (exec (.ctxCreate 0) (box (5 + 2 * 2 ^ 13) 0x40002000))
    t.d.ctx 5 = some ⟨5, 0, false, false, 2, 0x40002000, 0, 1⟩ ∧ t.d.nctx = 2 ∧ ended (exec (.ctxCreate 0) (box (5 + 2 * 2 ^ 13) 0x40002000)) = (1, 0, [(0, 2)]) ∧
    ended (exec (.ctxCreate 0) (box 5 0x40002000)) = (1, 0x82, [(0, 2)]) := by decide +kernel
theorem test_ctxDestroy :
    ended (exec (.ctxDestroy 0) (box 0 0)) = (2, 0x85, [(0, 2)]) ∧ ended (exec (.ctxDestroy 0) (box 9 0)) = (2, 0x81, [(0, 2)]) := by decide +kernel
theorem test_ctxArea :
    (after (exec (.ctxArea 0) (box 0 0x40200000))).d.ctx 0 = some { placedCtx with carea := 0x40200000 } ∧
    ended (exec (.ctxArea 0) (box 0 0x40200800)) = (11, 0x83, [(0, 2)]) := by decide +kernel
theorem test_hold : ((after (exec (.hold 0) (box 0 0))).d.ctx 0).map Ctx.held = some true := by decide +kernel
theorem test_release : ended (exec (.release 0) (box 0 0)) = (7, 0, [(0, 2)]) := by decide +kernel
theorem test_keyGen :
    (after (exec (.keyGen 0) (box 9 0))).d.keySlot 9 = some ⟨some 0, false, .random 0⟩ ∧
    ended (exec (.keyGen 0) (box (9 + 2 ^ 12) 0)) = (3, 0x84, [(0, 2)]) := by decide +kernel
theorem test_keySet :
    (after (exec (.keySet 0) (box 9 7 .run))).d.keySlot 9 = some ⟨some 0, true, .given 1⟩ ∧
    ended (exec (.keySet 0) (box 9 8 .run)) = (4, 0x88, [(0, 2)]) := by decide +kernel
theorem test_keyErase :
    (after (exec (.keyErase 0) (box 2 0))).d.keySlot 2 = none ∧ ended (exec (.keyErase 0) (box 1 0)) = (5, 0x86, [(0, 2)]) := by decide +kernel
theorem test_spdm : (after (exec (.spdmKeyMessage 0 7 5) (box 0 0))).d.fns[(0 : FnId)].spdm = [(8, 0), (7, 5)] := by decide +kernel

/-- A supervisor image descriptor (R429) at 0x40003000: SVEC 0x40004000, one control word, key 2, 128 bytes. -/
def supDesc (n : Nat) : List Byte := bytesOf 8 (0x40004000 + n * 2 ^ 48) ++ bytesOf 8 (2 + 128 * 2 ^ 32) ++ bytesOf 48 0 ++ bytesOf 32 0x0107
/-- Function 0 with such a descriptor, and an empty list of extents at 0x40005000, under its key slot 2. -/
def supBox (opa n : Nat) (ctxs : List Ctx) (i : Iface := .unlocked) : State :=
  sys Core.reset { ((boxDev opa 0 i).writeMem ⟨.random 1, none⟩ 0x40003000 (supDesc n)).writeMem ⟨.random 1, none⟩ 0x40005000 (zeros 64) with
    scrubG := [], ctxs := ctxs }
/-- A stream of function 0 that has read all of its granules. -/
def streamOf (out quiet : Bool) (left : List (Nat × Nat)) : Stream := ⟨out, quiet, 0, [], ⟨[], [(0, false), (1, false)], [], [], [], [], ⟨[], []⟩⟩, left⟩
/-- Function 0 with a stream under way. -/
def streaming (out quiet : Bool) : State := sys Core.reset
  { devM 0x100 [1, 2] with
    streams := [streamOf out quiet []], ckpts := [⟨[], [(0, false), (1, false)], [(0x200, 9)], [(8, UnitTag.whole (.random 5))], [], [], ⟨[], []⟩⟩] }

theorem test_witness_ImageAndStreamCommands :
    (∀ i ∈ [Iface.unlocked, .locked, .run], TakesCommand 0 (supBox 0x40003000 1 [] i)) ∧
    (let s := supBox 0x40003000 1 []
     s.d.inGranules 0 none 0x40003000 64 = true ∧ s.d.inGranules 0 none 0x40003000 (64 + 32 * 1) = true ∧ s.d.fns[(0 : FnId)].iface = .unlocked ∧
     (∀ c ∈ s.d.ctxs, c.fn ≠ 0) ∧ s.d.inGranules 0 none 0x40004000 128 = true ∧ s.d.keySlot 2 = some ⟨some 0, false, .random 1⟩ ∧
     natOf (s.d.fnRead 0 0x40003000 8) = 0x40004000 + 2 ^ 48) ∧
    (let s := supBox 0x40003000 65 []
     ¬ field (natOf (s.d.fnRead 0 0x40003000 8)) 48 7 ≤ 64) ∧
    (supBox (2 ^ 40) 1 []).d.inGranules 0 none (2 ^ 40) 64 = false ∧ (∃ c ∈ (supBox 0x40003000 1 [placedCtx]).d.ctxs, c.fn = 0) ∧
    (supBox 0x40005000 1 []).d.extents 0 1048576 0x40005000 = some [] ∧
    ((∀ c ∈ (supBox 0 1 []).d.ctxs, c.fn = 0 → c.held = true) ∧
      ∀ r ∈ (supBox 0 1 []).d.recs, (supBox 0 1 []).d.ctxIs r.ctx 0 false = true → r.st ≠ .running) ∧
    ¬ (∀ c ∈ (box 0 0).d.ctxs, c.fn = 0 → c.held = true) ∧ (supBox (2 ^ 40) 1 []).d.extents 0 1048576 (2 ^ 40) = none ∧
    (∀ v ∈ [0, 12], v = 0 ∨ 11 < v) ∧ (box 0 0 .error).d.fns[(0 : FnId)].iface = .error := by
  refine ⟨fun i h => ?_, by decide +kernel, by decide +kernel, by decide +kernel, by decide +kernel, by decide +kernel, by decide +kernel, by decide +kernel,
    by decide +kernel, by decide, by decide +kernel⟩
  simp only [List.mem_cons, List.not_mem_nil, or_false] at h
  rcases h with rfl | rfl | rfl <;> exact ⟨by decide +kernel, by decide +kernel⟩

/-- R389: a command that is written while another runs waits with its operands, and is performed once that one has ended. -/
theorem test_witness_ImageAndStreamCommands_waits :
    let s := user.modD fun d => d.modFn 0 fun x => { x with status := 1, opa := 0x123, opb := 5 }
    let t := (after (exec (.release 0) s)).modD fun d => d.modFn 0 fun x => { x with opa := 0 }
    let u := t.commandOver 0
    (s.d.fns[(0 : FnId)].iface ≠ .error ∧ s.inFlr 0 = false ∧ s.d.fns[(0 : FnId)].status = 1) ∧
    t.d.fns[(0 : FnId)].cmds = [(7, 0x123, 5)] ∧ t.d.fns[(0 : FnId)].status = 1 ∧ u.d.fns[(0 : FnId)].cmds = [] ∧
    u.d.fns[(0 : FnId)].status = 0x81 ∧ u.d.msix = [(0, 2), (0, 2)] := by decide +kernel

theorem streaming_granule (o q : Bool) (g : Fin 477) :
    (streaming o q).d.grans[g] = if g.val = 1 ∨ g.val = 0 then ⟨some 0, false⟩ else ⟨none, false⟩ := by
  show (((Vector.replicate 477 (⟨none, false⟩ : Gran)).set 0 ⟨some 0, false⟩).set 1 ⟨some 0, false⟩)[g.val] = _
  simp only [Vector.getElem_set, Vector.getElem_replicate]
  by_cases h : g.val = 1
  · simp [h]
  · by_cases h' : g.val = 0 <;> simp [h, h', eq_comm]

theorem streaming_granules (o q : Bool) : (streaming o q).d.granulesOf 0 = [(0, false), (1, false)] := by
  have h : (streaming o q).d.granulesOf 0 = (List.finRange 477).filterMap fun g => if g.val = 1 ∨ g.val = 0 then some (g.val, false) else none := by
    unfold Dev.granulesOf
    congr 1
    funext g
    rw [streaming_granule]
    split <;> simp
  rw [h]
  decide +kernel

theorem test_witness_CheckpointComplete :
    (∀ o ∈ [true, false], (streaming o true).d.streams.find? (fun y => y.fn == 0) = some (streamOf o true [])) ∧
    (streaming true true).d.granulesOf 0 = [(0, false), (1, false)] ∧ (streaming true true).d.streamFree [(0, false), (1, false)] = true ∧
    (∀ (die : Fin 4), ∀ v ∈ (streaming true true).d.seif[die], v.fn ≠ 0) ∧
    ((streaming false true).d.ckpts.find? fun c => c.ext == []).map (fun c => c.grans.map Prod.fst) = some [0, 1] :=
  ⟨fun _ _ => rfl, streaming_granules true true, by decide +kernel, by decide +kernel, by decide +kernel⟩

theorem scrub_ckpts (d : Dev) (p : Nat) : (d.scrubPage p).ckpts = d.ckpts := by
  unfold Dev.scrubPage
  split <;> rfl
theorem settle_ckpts (d : Dev) (pa n : Nat) : (d.settlePages pa n).ckpts = d.ckpts := by
  unfold Dev.settlePages
  generalize Dev.pagesOf pa n = ps
  induction ps generalizing d with
  | nil => rfl
  | cons p ps ih => rw [List.foldl_cons, ih]; split <;> first | exact scrub_ckpts _ _ | rfl

theorem settleAll_ckpts (gs : List (Nat × Bool)) (d : Dev) :
    (gs.foldl (fun (d : Dev) g => d.settlePages (g.1 * 2 ^ 30) (64 * (granUnits g.1).2)) d).ckpts = d.ckpts := by
  induction gs generalizing d with
  | nil => rfl
  | cons g gs ih => rw [List.foldl_cons, ih, settle_ckpts]

theorem test_witness_CheckpointComplete_restore :
    ∃ c, (((streamOf false true []).got.grans.foldl (fun (d : Dev) g => d.settlePages (g.1 * 2 ^ 30) (64 * (granUnits g.1).2))
        (streaming false true).d).ckpts.find? fun c => c.ext == []) = some c ∧
      c.grans.map Prod.fst = (streamOf false true []).got.grans.map Prod.fst ∧
      ∀ d, ∀ q ∈ hostParts c.ext (c.bytes d), (upFrom q.1 q.2.length).map d.mem.get = q.2 := by
  rw [settleAll_ckpts]
  exact ⟨⟨[], [(0, false), (1, false)], [(0x200, 9)], [(8, UnitTag.whole (.random 5))], [], [], ⟨[], []⟩⟩, rfl, rfl, fun d q h => absurd h (by simp [hostParts])⟩

/-- A checkpoint of no granule, for one extent of host memory. -/
def hostStream : Stream := ⟨true, true, 0, [⟨false, 0, 0, 512000000000, 64⟩], ⟨[⟨false, 0, 0, 512000000000, 64⟩], [], [], [], [], [], ⟨[], []⟩⟩, []⟩
theorem test_witness_CheckpointComplete_bytes :
    let s := sys Core.reset { devM 0x100 [1, 2] with streams := [hostStream] }
    s.d.streams.find? (fun y => y.fn == 0) = some hostStream ∧ hostStream.out = true ∧ hostStream.left = [] ∧ 0 < (64 : W64).toNat ∧
    0 < (hostStream.got.bytes s.d).length :=
  ⟨rfl, rfl, rfl, by decide, by simp [Ckpt.bytes, hostStream, bytesOf]⟩

theorem test_witness_StreamRead :
    let s := streaming true true
    let w := streamOf true true [(0, 4), (16, 1)]
    w.quiet = true ∧ w.left ≠ [] ∧ s.d.settledFor w.fn = true ∧
    ∀ r ∈ w.left, s.d.locked (64 * r.1) (64 * r.2) = false ∧ ∀ a, 64 * r.1 ≤ a → a < 64 * (r.1 + r.2) → s.d.pending a = false :=
  ⟨rfl, by decide, by decide +kernel, fun r h => ⟨by revert r; decide +kernel, fun _ _ _ => rfl⟩⟩

/-- R418: with QUIESCE all that is left is read at one point. -/
theorem test_stream_read :
    let u := (streamOf true true [(0, 5), (16, 1)]).read (streaming true true).d 0
    u.2.left = [] ∧ u.2.got.mem = [(0x100, 1), (0x101, 2)] := by decide +kernel

theorem test_supLoad :
    let x := (after (exec (.supLoad 0) (supBox 0x40003000 1 []))).d.fns[(0 : FnId)]
    (x.svec.toNat, x.stkey.toNat, x.stlen.toNat, x.scwt, x.status.toNat) = (0x40004000, 2, 128, [(0, 0x0107)], 0) := by decide +kernel
theorem test_checkpoint : (after (exec (.checkpoint 0) (supBox 0x40005000 1 []))).d.streams.map (fun w => (w.out, w.quiet, w.left)) =
    [(true, false, [(0, 16777216), (16777216, 16777216), (33554432, 16777216)])] ∧
    (after (exec (.checkpoint 0) (supBox 0x40005000 1 []))).d.fns[(0 : FnId)].status = 1 := by decide +kernel
theorem test_restore : ended (exec (.restore 0) (supBox 0x40005000 1 [placedCtx])) = (9, 0x89, [(0, 2)]) := by decide +kernel
/-- R417: a restore puts back what the granules held, and leaves every other granule. -/
theorem test_checkpointComplete :
    putGranules [(1, false)] 1 [(5, 1), (2 ^ 30 + 5, 2), (2 ^ 31 + 5, 3)] [(2 ^ 30 + 6, (9 : Byte))] = [(5, 1), (2 ^ 30 + 6, 9), (2 ^ 31 + 5, 3)] := by
  decide +kernel
theorem test_unknownCommand : ended (exec (.unknownCommand 0 12) (box 0 0)) = (12, 0x80, []) := by decide +kernel

/-! ### Interfaces and assignments -/

/-- Function 0 ready to be locked, or in another state. -/
def face (i : Iface) (z : Option Frozen := none) : State :=
  sys Core.reset (dev0.modFn 0 fun x => { x with iface := i, command := 2, bar0 := 0x100000, bar2 := 0x4000, bar4 := 0x8000000000, ide := true, frozen := z })
/-- Its locked items. -/
def frozenItems : Frozen := ⟨0x100000, 0x4000, 0x8000000000, 5, 1, 0, 3, 1, [(0, false), (1, false)]⟩
/-- The responses of a step. -/
def answers (o : Host.Outcome State Fault Refusal) : List Resp := (after o).d.resps

theorem test_witness_InterfaceRequests :
    (let s := face .unlocked
     let x := s.d.fns[(0 : FnId)]
     x.iface = .unlocked ∧ x.command.getLsbD 1 = true ∧ x.bar0 ≠ 0 ∧ x.bar2 ≠ 0 ∧ x.bar4 ≠ 0 ∧ x.ide = true ∧
     (∃ c : Fin 32, s.d.clus[c].owner = some 0) ∧ ∃ g : Fin 477, s.d.grans[g].owner = some 0) ∧
    user.d.fns[(0 : FnId)].ide = false ∧ (∀ i ∈ [Iface.unlocked, .locked, .run, .error], (face i).d.fns[(0 : FnId)].iface = i) ∧
    (∀ i ∈ [Iface.locked, .run], (face i (some frozenItems)).d.fns[(0 : FnId)].frozen = some frozenItems) := by
  refine ⟨⟨by decide +kernel, by decide +kernel, by decide +kernel, by decide +kernel, by decide +kernel, by decide +kernel, ⟨0, by decide +kernel⟩,
    ⟨0, by decide +kernel⟩⟩, by decide +kernel, by decide +kernel, by decide +kernel⟩

theorem test_witness_InterfaceRequests_turn :
    (∀ i ∈ [Iface.unlocked, .locked, .run, .error], InTurn (64 + (0 : FnId).val) 2 (face i)) ∧
    InTurn (64 + (0 : FnId).val) 2 ((face .run).modD fun d => { d with ranks := [(64, 2), (65, 3)] }) := by
  simp only [InTurn]
  decide +kernel

theorem test_lock :
    (after (exec (.lockInterfaceRequest 0) (face .unlocked))).d.fns[(0 : FnId)].iface = .locked ∧
    answers (exec (.lockInterfaceRequest 0) (face .run)) = [.tdisp 0 1 []] := by decide +kernel
theorem test_start : (after (exec (.startInterfaceRequest 0) (face .locked))).d.fns[(0 : FnId)].iface = .run := by decide +kernel
theorem test_stop :
    let t := after (exec (.stopInterfaceRequest 0) ((face .run).modD fun d => { d with ctxs := [], keys := [(3, ⟨some 0, true, .random 2⟩)] }))
    t.d.fns[(0 : FnId)].iface = .unlocked ∧ t.d.keys = [] := by decide +kernel
/-- R398: the report's first bytes, in state RUN. -/
theorem test_report :
    (answers (exec (.getDeviceInterfaceReport 0) (face .run (some frozenItems)))).map (fun r => match r with
      | .tdisp 0 0 b => b.take 10
      | _ => []) = [[1, 0, 0, 2, 0, 1, 5, 0, 1, 0]] := by decide +kernel
theorem test_state : answers (exec (.getDeviceInterfaceState 0) (face .error)) = [.tdisp 0 0 [3]] := by decide +kernel
theorem test_version : (answers (exec (.getTdispVersion 0) user)).length = 1 ∧ (answers (exec (.getTdispCapabilities 0) user)).length = 1 := by
  decide +kernel

theorem test_witness_LockedItems :
    (∀ i ∈ [Iface.locked, .run], (face i).d.fns[(0 : FnId)].iface = .locked ∨ (face i).d.fns[(0 : FnId)].iface = .run) ∧
    (∀ i ∈ [Iface.unlocked, .error], (face i).d.fns[(0 : FnId)].iface ≠ .locked ∧ (face i).d.fns[(0 : FnId)].iface ≠ .run) ∧
    user.d.clus[(0 : Fin 32)].owner = some 0 ∧ user.d.clus[(1 : Fin 32)].owner = none ∧ user.d.grans[(1 : Fin 477)].owner = some 0 ∧
    user.d.grans[(476 : Fin 477)].owner = none := by decide +kernel

/-- Cluster 0 now of function 1, with a running stream of a context of function 0 on its first core. -/
def evicted : State := user.modD fun d => { d with clus := d.clus.set 0 ⟨some 1, false, false⟩ }

theorem test_witness_LockedItems_turn :
    InTurn (64 + (0 : FnId).val) 1 user ∧ ¬ InTurn (64 + (0 : FnId).val) 1 (user.modD fun d => { d with ranks := [(64, 2)] }) ∧
    InTurnAll [0, 7] user ∧ InTurnAll [0, 0] (user.modD fun d => { d with ranks := [(64, 3)] }) ∧ InTurnAll [1] user ∧
    (∀ c ∈ coresOf 5, (user.core c).active = false ∧ (user.core c).car = none) ∧
    (user.ctxOf 0 = some placedCtx ∧ user.ownCluster 0 placedCtx = true) ∧
    ((0 : CoreId) ∈ coresOf 0 ∧ evicted.ctxOf 0 = some placedCtx ∧ evicted.ownCluster 0 placedCtx = false ∧ (evicted.core 0).active = true ∧
      (evicted.core 0).car = some 0 ∧ (evicted.d.car 0).isSome = true) := by
  simp only [InTurnAll, InTurn]
  decide +kernel
/-- Before boot has trained the memory, and before a function-level reset completes. -/
theorem test_witness_LockedItems_reset :
    InTurn 64 1 (user.modD fun d => { d with training := true }) ∧ (user.modD fun d => { d with training := true }).d.training = true ∧
    InTurn 64 1 (resetting user) ∧ (resetting user).d.training = false ∧ (resetting user).inFlr 0 = true ∧ user.d.training = false ∧
    InTurn 64 2 (resetting (face .locked)) ∧ (resetting (face .locked)).inFlr 0 = true := by
  simp only [InTurn]
  decide +kernel
/-- R433: a request before the reset completes has the error response, and a write is discarded. -/
theorem test_resetting :
    answers (exec (.startInterfaceRequest 0) (resetting (face .locked))) = [.tdisp 0 1 []] ∧
    (after (exec (.configSpaceWrite 0 .bar2 0x8000) (resetting (face .unlocked)))).d.fns[(0 : FnId)].bar2 = 0x4000 := by decide +kernel
/-- R382: what runs on a cluster that is another function's now does not go on. -/
theorem test_evict : (evicted.evict 0).me.run = none ∧ (evicted.evict 0).me.car = none := by decide +kernel

theorem test_configSpace :
    (after (exec (.configSpaceWrite 0 .bar0 0x12345678) (face .unlocked))).d.fns[(0 : FnId)].bar0 = 0x12300000 ∧
    (after (exec (.configSpaceWrite 0 .bar4 (BitVec.allOnes 64)) (face .unlocked))).d.fns[(0 : FnId)].bar4 = 0xFFFFFF8000000000 := by decide +kernel
/-- R395, R396, R400: a change of a locked item moves the interface to ERROR, with IFERR and IFWHY 1. -/
theorem test_configSpace_locked :
    let x := (after (exec (.configSpaceWrite 0 .bar2 0x4000) ((face .locked).modD fun d => { d with cars := [] }))).d.fns[(0 : FnId)]
    x.iface = .error ∧ x.err.extractLsb' 2 4 = 3 := by decide +kernel
theorem test_assignment : (after (exec (.assignmentChange (.cluster 5 (some 2) true)) user)).d.clus[(5 : Fin 32)] = ⟨some 2, true, false⟩ := by
  decide +kernel
theorem test_errorReport : (after (exec (.errorReportWrite 0 0x41) (withFn fun x => { x with err := 0xC3 }))).d.fns[(0 : FnId)].err = 0x82 := by
  decide +kernel

theorem test_witness_ReceiptsDebugAndResets :
    (∃ g : FnId, (face .run).d.fns[g].iface = .locked ∨ (face .run).d.fns[g].iface = .run) ∧
    (∀ g : FnId, user.d.fns[g].iface = .unlocked ∨ user.d.fns[g].iface = .error) ∧
    (user.modD fun d => { d with receipts := [⟨1, 0, 0, []⟩] }).d.receipts ≠ [] ∧
    (∀ x ∈ [100, 110, 255], (100 : Nat) ≤ (BitVec.ofNat 8 x).toNat) ∧ (∀ x ∈ [0, 95], (BitVec.ofNat 8 x).toNat ≤ 95) ∧
    (∀ x ∈ [110, 255], (110 : Nat) ≤ (BitVec.ofNat 8 x).toNat) ∧ user.d.warn = false ∧ (user.modD fun d => { d with warn := true }).d.warn = true := by
  refine ⟨⟨0, by decide +kernel⟩, by decide +kernel, by decide +kernel, by decide, by decide, by decide, by decide +kernel, by decide +kernel⟩

theorem test_witness_ReceiptsDebugAndResets_turn :
    InTurn (64 + (0 : FnId).val) 0 user ∧ user.d.fns[(0 : FnId)].status ≠ 1 ∧
    (streaming true true).d.streams.map Stream.fn = [0] ∧ ((streaming true true).modD fun d => d.modFn 0 fun x => { x with status := 1 }).d.fns[(0 : FnId)].status = 1 := by
  simp only [InTurn]
  decide +kernel

/-- An image of a version under public keys, with its signatures good or not. -/
def imageOf (v : Nat) (k : BitVec 384) (good : Bool) : Image :=
  { digest := 7, version := v, ecdsa := k, lms := 0, ecdsaOk := good, lmsOk := true }
/-- R431: a device with fused digests, a counter of 2 and two flash slots. -/
def booting (a b : Option Image) : State := user.modD fun d => { d with boot := { d.boot with ecdsa := 5, lms := 0, counter := 2, slotA := a, slotB := b } }

theorem test_witness_ReceiptsDebugAndResets_boot :
    (let b := (booting (some (imageOf 2 5 true)) none).d.boot
     let i := imageOf 2 5 true
     b.slotA = some i ∧ i.ecdsaOk = true ∧ i.lmsOk = true ∧ i.ecdsa = b.ecdsa ∧ i.lms = b.lms ∧ b.counter.toNat ≤ i.version) ∧
    (let b := (booting (some (imageOf 1 5 true)) (some (imageOf 3 5 true))).d.boot
     b.slotA = some (imageOf 1 5 true) ∧ ¬ b.counter.toNat ≤ (imageOf 1 5 true).version ∧ b.slotB = some (imageOf 3 5 true) ∧
       b.counter.toNat ≤ (imageOf 3 5 true).version) ∧
    (let b := (booting (some (imageOf 2 5 false)) none).d.boot
     b.slotA = some (imageOf 2 5 false) ∧ (imageOf 2 5 false).ecdsaOk = false ∧ b.slotB = none) ∧
    (user.d.moves.map Prod.fst).Nodup := by decide +kernel

theorem test_boot :
    (after (exec (.deviceReset .fundamental) (booting (some (imageOf 2 5 true)) none))).d.boot.image = some (imageOf 2 5 true) ∧
    (after (exec (.deviceReset .fundamental) (booting (some (imageOf 1 5 true)) (some (imageOf 3 5 true))))).d.boot.image = some (imageOf 3 5 true) ∧
    (after (exec (.deviceReset .fundamental) (booting (some (imageOf 2 5 false)) (some (imageOf 3 6 true))))).d.inReset = true := by decide +kernel

theorem test_receipt :
    (answers (exec (.scrubReceiptRead 0) user)).map (fun r => match r with
      | .receipt _ r s => (r, s.p384.length, s.lms.length)
      | _ => (none, 0, 0)) = [(none, 96, 1772)] := by decide +kernel
theorem test_attestation :
    (answers (exec (.attestationRequest 0) user)).map (fun r => match r with
      | .attestation _ b s => (b.length, s.p384.length)
      | _ => (0, 0)) = [(48, 96)] := by decide +kernel
theorem test_ide : (after (exec (.ideStreamStateChange 0 true) user)).d.fns[(0 : FnId)].ide = true := by decide +kernel
theorem test_flr :
    let t := after (exec (.functionLevelReset 0) ((withQueue readyQueue).modD fun d => { d with ctxs := [] }))
    t.d.qs[(0 : Fin 64)].en = false ∧ t.d.grans[(1 : Fin 477)].owner = some 0 ∧ t.inFlr 0 = true ∧
    (after (flrDone 0 t)).inFlr 0 = false := by decide +kernel

theorem test_debug : answers (exec (.debugTraceRequest .debug) (face .run)) = [.discarded .debug] ∧
    answers (exec (.debugTraceRequest .trace) user) = [.debugData .trace] := by decide +kernel
theorem test_deviceReset :
    let t := after (exec (.deviceReset .hot) (user.modD fun d => { d with mem := [(0x100, 1), (512000000000, 2)], lost := [7] }))
    t.d.ctxs = [] ∧ t.d.lost = [7] ∧ t.d.mem = [(512000000000, 2)] ∧ t.d.scrubG.length = 477 := by decide +kernel
theorem test_twarn :
    let t := after (exec (.twarnReached 100) user)
    t.d.tmax = 100 ∧ t.d.warn = true ∧ t.d.msix.length = 8 ∧ (after (exec (.tmaxFallsBelowTwarn 95) t)).d.admHold = false := by decide +kernel
theorem test_ttrip :
    let t := after (exec (.ttripReached 110) ((face .run).modD fun d => { d with cars := [], ctxs := [] }))
    t.d.inReset = true ∧ t.d.warn = true := by decide +kernel

/-! ### Errors, retirement, scrub and monitors -/

/-- A load whose data is in the oasis. -/
def oasisLoad : QEnt := { entry .ld .loc 0x80 8 0 with ret := .oasis }

theorem test_witness_ErrorsPoisonTheirUnit :
    ((queued oasisLoad).core 0).oasisHas oasisLoad.seq = true ∧ (64 * 0 < 512000000000 ∧ 64 * 7999999999 < 512000000000) ∧
    user.d.pending (64 * 0) = true ∧ (user.modD fun d => { d with scrubG := [] }).d.pending (64 * 0) = false ∧ 64 * 16777215 < 2 ^ 30 ∧
    (face .run).d.fns[(0 : FnId)].iface = .run ∧
    (∀ u ∈ [ErrUnit.spadLine 0 0, .cwtEntry 0 511, .sreg 0 63, .stagedRoutine 0 0, .stagedWord 0 0, .wsUnit 3 16777215, .supCwt 7 63],
      user.hasUnit u = true) ∧
    64 * (7999999999 + 1) ≤ 512000000000 := by
  refine ⟨by decide +kernel, by decide, by decide +kernel, by decide +kernel, by decide, by decide +kernel, by decide +kernel, by decide⟩

theorem test_uncorrectable :
    (((after (exec (.uncorrectableError (.sreg 0 5)) user)).core 0).r.sp.getLsbD 5) = true ∧
    ((after (exec (.uncorrectableError (.spadLine 0 3071)) user)).core 0).m.spadP = [3071] ∧
    (after (exec (.uncorrectableError (.wsUnit 2 9)) user)).d.wsP[(2 : Fin 4)] = [9] := by decide +kernel
theorem test_supCwt_error :
    let x := (after (exec (.uncorrectableError (.supCwt 0 3)) ((face .run).modD fun d => { d with cars := [], ctxs := [] }))).d.fns[(0 : FnId)]
    x.scwtP = [3] ∧ x.iface = .error ∧ x.err.extractLsb' 3 3 = 4 := by decide +kernel
theorem test_correctable : sat255 255 = 255 ∧ sat255 7 = 8 ∧
    ((after (exec (.correctableError (.sreg 0 5)) user)).core 0).r.sp = 0 := by decide +kernel

/-- The device with repair pages in stack 2. -/
def repairing (pool : List Nat) : State := user.modD fun d => { d with hbm := d.hbm.set 2 ⟨1, pool, 0, 0⟩, cars := [] }

theorem test_witness_ChannelsAndClustersRetire :
    ((repairing [9]).d.hbm[(2 : Fin 8)].rch.getLsbD 1 = false ∧ ∃ pages : List Nat,
      ∀ p, p ∈ pages ↔ p < 7812500 ∧ (repairing [9]).d.onChannel ⟨65, by decide⟩ p = true) ∧
    ((repairing [9]).d.pageOwner 5 = some 0 ∧ (repairing [9]).d.hbm[(2 : Fin 8)].pool = [9] ∧ (repairing []).d.hbm[(2 : Fin 8)].pool = [] ∧
      (repairing [9]).d.pageOwner 0x8000 = none ∧ ¬ 5 ∈ (repairing [9]).d.lost) ∧
    (let d := { dev0 with slots := dev0.slots.set 0 ⟨960, 0, 1, 0, true⟩, hbm := dev0.hbm.set 0 ⟨3, [], 0, 0⟩ }
     (d.stackLoad 0).2 < (d.stackLoad 0).1) ∧
    (let s := (repairing []).modD fun d => { d with moves := [(5, 9)] }
     tabGet s.d.moves 5 = some 9 ∧ s.d.moving.contains 5 = false) ∧
    (let s := (repairing []).modD fun d => { d with moves := [(5, 9)], moving := [5] }
     tabGet s.d.moves 5 = some 9 ∧ s.d.moving.contains 5 = true) ∧
    (user.d.clus[(0 : Fin 32)].retired = false ∧ ∃ c ∈ coresOf 0, (user.core c).active = true) ∧
    (∀ x ∈ (repairing []).d.cars, (repairing []).holdsLines 3 x = false) := by
  refine ⟨⟨by decide +kernel, (List.range 7812500).filter fun p => (repairing [9]).d.onChannel ⟨65, by decide⟩ p, fun p => ?_⟩,
    by decide +kernel, by decide +kernel, by decide +kernel, by decide +kernel, ⟨by decide +kernel, 0, by decide +kernel, by decide +kernel⟩,
    by decide +kernel⟩
  rw [List.mem_filter, List.mem_range]

/-- Cluster 0 retired and idle, with or without cluster 1 to take its place. -/
def retiring (repl : Bool) : State :=
  sys { core0 with run := none, lineCar := some 0, m := { core0.m with spad := [(0x80, 5)] } }
    { dev0 with clus := (dev0.clus.set 0 ⟨some 0, false, true⟩).set 1 ⟨if repl then some 0 else none, false, false⟩, recs := [] }

theorem test_witness_ClustersRetire :
    (∀ b ∈ [true, false], (retiring b).d.clus[(0 : Fin 32)].retired = true ∧ (∀ c ∈ coresOf 0, ((retiring b).core c).active = false ∧ ((retiring b).core c).enginesDone = true) ∧
      (∀ x ∈ (retiring b).d.cars, (retiring b).holdsLines 0 x = true) ∧ ((retiring b).core (coreAt 0 0)).lineCar = some (placedCar 0).id ∧
      ((retiring b).core (coreAt 0 0)).car = some (placedCar 0).id ∧
      (placedCar 0).clus = 0) ∧
    (retiring true).mayReplace 0 1 = true ∧ (∀ r, (retiring false).mayReplace 0 r = false) ∧
    (retiring false).d.cars.filter (fun y => (retiring false).holdsLines 0 y) = [placedCar 0] ∧
    ((retiring false).completeWrite (placedCar 0).queue (field (placedCar 0).rec_.toNat 576 64) 0x8000000000000008).isSome = true := by
  refine ⟨?_, by decide +kernel, by decide +kernel, by decide +kernel, by decide +kernel⟩
  intro b h
  simp only [List.mem_cons, List.not_mem_nil, or_false] at h
  rcases h with rfl | rfl <;> decide +kernel

/-- R409: an assigned page waits for its move to a repair page; with none left its data is lost. -/
theorem test_retirePage :
    let t := ((repairing [9]).retirePage 2 5).retirePage 2 6
    t.d.moves = [(5, 9)] ∧ t.d.lost = [6] ∧ t.d.hbm[(2 : Fin 8)].pool = [] := by decide +kernel
theorem test_pageMove :
    let t := after (exec (.pageMove 2 5 false) ((repairing []).modD fun d => { d with moves := [(5, 9)] }))
    t.d.locked (5 * 65536 + 7) 8 = true ∧ (after (exec (.pageMove 2 5 true) t)).d.moved = [(5, 9)] := by decide +kernel
theorem test_clusterRetire :
    let t := after (exec (.clusterRetire 0 (some 1)) (retiring true))
    (t.core (coreAt 1 0)).m.spad = [(0x80, 5)] ∧ t.d.cars.map Caravan.clus = [1] := by decide +kernel
theorem test_clusterRetire_stops :
    let t := after (exec (.clusterRetire 0 none) user)
    t.d.clus[(0 : Fin 32)].retired = true ∧ (t.core 0).preempt = true ∧ t.d.fns[(0 : FnId)].err.getLsbD 7 = true := by decide +kernel

theorem upFrom_succ (a n : Nat) : upFrom a (n + 1) = a :: upFrom (a + 1) n := by
  simp only [upFrom, List.range_succ_eq_map, List.map_cons, List.map_map, Nat.add_zero, List.cons.injEq, true_and]
  exact List.map_congr_left fun x _ => by simp only [Function.comp]; omega

theorem granPages_first : granPages 0 = 0 :: upFrom 1 16383 := by
  rw [granPages, if_neg (by decide)]
  exact upFrom_succ 0 16383

theorem mem_upFrom_ge {n a b : Nat} (h : b ∈ upFrom a n) : a ≤ b := by
  simp only [upFrom, List.mem_map] at h
  obtain ⟨x, -, rfl⟩ := h
  omega

theorem all_but (a : Nat) (l : List Nat) : ((a :: l).all fun p => p == a || l.contains p) = true := by
  simp only [List.all_eq_true, Bool.or_eq_true, beq_iff_eq, List.mem_cons, List.contains_iff_mem]
  exact fun _ h => h
theorem not_all {a b : Nat} {l r : List Nat} (hb : r.contains b = false) (ne : (b == a) = false) :
    ((a :: b :: l).all fun p => p == a || r.contains p) = false := by
  simp only [List.all_cons, hb, ne, Bool.or_false, Bool.false_and, Bool.and_false]

theorem filter_but (a : Nat) (l : List Nat) (h : ¬ a ∈ l) : (a :: l).filter (fun p => !l.contains p) = [a] := by
  rw [List.filter_cons, if_pos (by simpa using h), List.filter_eq_nil_iff.mpr]
  intro p hp
  simpa using hp

/-- Granule 0 to scrub, some of its pages scrubbed, page 0 lost. -/
def scrubbing (l : List Nat) : State := sys Core.reset { dev0 with scrubG := [0], scrubbed := l, lost := [0] }
theorem scrubbing_scrubbed (l : List Nat) : (scrubbing l).d.scrubbed = l := rfl
/-- The same with no scrub under way. -/
def unscrubbed : State := sys Core.reset { dev0 with scrubG := [] }

theorem one_to : ¬ 0 ∈ upFrom 1 16383 := fun h => absurd (mem_upFrom_ge h) (by decide)

theorem nextAccesses_reset {s : State} {c : CoreId} (h : s.core c = Core.reset) : s.nextAccesses c = [] := by
  unfold State.nextAccesses
  rw [h]
  rfl
theorem no_accesses (d : Dev) : ((List.finRange 320).flatMap fun c => ((sys Core.reset d).nextAccesses c).flatMap Prod.snd) = [] :=
  List.flatMap_eq_nil_iff.mpr fun c _ => by rw [nextAccesses_reset ((sys_core _ d c).trans (ite_self _))]; rfl
theorem head_filter {p : Nat → Bool} {a : Nat} {l : List Nat} (h : p a = true) : ((a :: l).filter p).head? = some a := by
  rw [List.filter_cons, if_pos h]; rfl
theorem scrubNext_first {d : Dev} (ha : (sys Core.reset d).agenda.head? = none)
    (h : ((granPages 0).filter fun p => !d.scrubbed.contains p).head? = some 0) : (sys Core.reset d).scrubNext 0 0 = true := by
  unfold State.scrubNext
  rw [no_accesses, ha, show (sys Core.reset d).d.scrubbed = d.scrubbed from rfl]
  simp only [hostWaits, List.append_nil, List.filter_nil, List.isEmpty_nil, if_true, h]
  rfl

theorem scrubbing_first (l : List Nat) (h : ((granPages 0).filter fun p => !l.contains p).head? = some 0) :
    (scrubbing l).scrubNext 0 0 = true := scrubNext_first rfl h

theorem test_witness_TenantScrub_next :
    (scrubbing []).scrubNext 0 0 = true ∧ (scrubbing (upFrom 1 16383)).scrubNext 0 0 = true ∧
    (unscrubbed.modD fun d => d.startScrub [0]).scrubNext 0 0 = true := by
  refine ⟨scrubbing_first [] ?_, scrubbing_first (upFrom 1 16383) ?_, ?_⟩
  · rw [granPages_first]; exact head_filter rfl
  · rw [granPages_first, filter_but _ _ one_to]; rfl
  · rw [show unscrubbed.modD (fun d => d.startScrub [0]) = sys Core.reset (Dev.startScrub { dev0 with scrubG := [] } [0]) from rfl]
    refine scrubNext_first rfl ?_
    rw [granPages_first]; exact head_filter rfl

theorem test_witness_TenantScrub :
    (∀ l, (scrubbing l).d.scrubG.contains 0 = true ∧ (scrubbing l).d.moving.contains 0 = false ∧ 0 ∈ (scrubbing l).d.lost) ∧
    (unscrubbed.d.scrubG.contains 0 = false ∧ (unscrubbed.modD fun d => d.startScrub [0]).d.scrubbed.contains 0 = false ∧
     unscrubbed.d.moving.contains 0 = false ∧ ¬ 0 ∈ unscrubbed.d.lost) ∧
    0 ∈ granPages 0 ∧ (∀ b ∈ [(0, true), (1023, false)], (b : Nat × Bool).1 < 1024) ∧
    (scrubbing []).d.scrubbed.contains 0 = false ∧ ((granPages 0).all fun p => p == 0 || (scrubbing []).d.scrubbed.contains p) = false ∧
    (scrubbing (upFrom 1 16383)).d.scrubbed.contains 0 = false ∧
    ((granPages 0).all fun p => p == 0 || (scrubbing (upFrom 1 16383)).d.scrubbed.contains p) = true := by
  have h : (upFrom 1 16383).contains 0 = false := by
    rw [Bool.eq_false_iff]
    exact fun h => one_to (List.contains_iff_mem.mp h)
  rw [granPages_first]
  simp only [scrubbing_scrubbed]
  exact ⟨fun _ => ⟨rfl, rfl, List.mem_cons_self ..⟩, by decide +kernel, List.mem_cons_self .., by decide, by decide,
    by rw [upFrom_succ 1 16382]; exact not_all (by decide) (by decide), h, all_but 0 _⟩

theorem test_scrub :
    let s := sys Core.reset { dev0 with scrubG := [0], mem := [(0x100, 1), (0x10000, 2)], memP := [4, 1024] }
    let t := after (exec (.tenantScrubPage 0 0 [(3, false)]) s)
    t.d.mem = [(0x10000, 2)] ∧ t.d.memP = [1024] ∧ t.d.scrubbed = [0] ∧ t.d.notes = [(192, 2)] := by decide +kernel
/-- R416: a receipt's first 12 bytes. -/
theorem test_receipt_bytes : (Receipt.bytes ⟨7, 3, 476, [(0x40, 2)]⟩).take 12 = bytesOf 2 1 ++ [3, 1] ++ bytesOf 4 7 ++ bytesOf 2 476 ++ bytesOf 2 1 := by
  decide +kernel
theorem test_onDemandScrub : (after (exec (.onDemandScrub 0 16) (user.modD fun d => { d with memP := [4] }))).d.memP = [4] := by decide +kernel

theorem test_witness_StackAndMonitorWrites :
    user.d.fns[(0 : FnId)].iface ≠ .error ∧ (face .error).d.fns[(0 : FnId)].iface = .error ∧ user.d.clus[(0 : Fin 32)].owner = some 0 ∧
    user.d.clus[(1 : Fin 32)].owner ≠ some 0 ∧ user.d.slots[(0 : Fin 16)].fn = 0 ∧ user.d.slots[(15 : Fin 16)].fn ≠ 1 := by decide +kernel

theorem test_stackStatus :
    (after (exec (.stackStatusWrite 0 2 5) (user.modD fun d => { d with hbm := d.hbm.set 2 ⟨1, [9], 3, 4⟩ }))).d.hbm[(2 : Fin 8)] = ⟨1, [9], 0, 0⟩ := by
  decide +kernel
/-- R419: a cluster monitor counts nothing of a quantity of channels, 3; CLR sets its least value to all ones. -/
theorem test_monitor :
    let t := after (exec (.monitorControlWrite 0 (.cluster 0) 0x8B) user)
    t.d.monC[(0 : Fin 32)].qty = 8 ∧ t.d.monC[(0 : Fin 32)].mn = 0xFFFFFFFF := by decide +kernel

/-! ### The host link and peers -/

/-- Function 0 with its memory window open under slot 1, and bytes at 0x100. -/
def windowed (i : Iface) : State :=
  sys Core.reset { (devM 0x100 [1, 2, 3, 0, 0, 0, 0, 0]).modFn 0 fun x => { x with iface := i, hkey := 0x1001 } with
    grans := (devM 0 []).grans.set 2 ⟨some 0, true⟩ }

theorem of_random (i : Nat) : OfSlot (.random i) := fun _ h => by cases h

theorem test_witness_HostWindowsAndRegisters :
    (∀ i ∈ [Iface.unlocked, .locked, .run], WindowOpen 0 (.random 0) (windowed i)) ∧
    (∀ k, (windowed .error).d.keySlot ((windowed .error).d.fns[(0 : FnId)].hkey.setWidth 12) = some k → OfSlot k.key) ∧
    (∀ o ∈ [128, 16384, 20000], 128 ≤ o % 256 ∨ 16384 ≤ o) ∧ InGranule 0 0x100 3 ∧ InGranule 476 511999999999 1 ∧
    WindowReaches 0 false 0 (windowed .unlocked) ∧ WindowReaches 0 true 2 (windowed .run) ∧ ¬ WindowReaches 0 false 2 (windowed .run) ∧
    ¬ WindowReaches 0 true 476 (windowed .run) ∧ (windowed .run).d.locked 0x100 3 = false ∧ (windowed .run).d.gone 0x100 3 = false ∧
    (∀ key, ¬ WindowOpen 0 key (windowed .error)) ∧ (∀ key, ¬ WindowOpen 0 key user) ∧
    (∀ o ∈ [1, 0x18, 0x600, 0x678, 0x13000], o % 8 ≠ 0 ∨ o = 0x18 ∨ (0x600 ≤ o ∧ o < 0x680) ∨ 0x13000 ≤ o) ∧
    (user.d.keySlot ((1 : W64).setWidth 12) = some ⟨some 0, false, .random 0⟩ ∧ user.d.fns[(0 : FnId)].iface = .unlocked ∧
      user.d.keySlot ((9 : W64).setWidth 12) = none) := by
  refine ⟨fun i h => ?_, fun k h => ?_, by decide, by simp [InGranule], by simp [InGranule],
    ⟨by decide +kernel, fun h => absurd h (by decide +kernel)⟩, ⟨by decide +kernel, fun _ => ⟨by decide +kernel, rfl⟩⟩,
    fun h => absurd (h.2 (by decide +kernel)).2 (by simp), fun h => absurd h.1 (by decide +kernel), by decide +kernel, by decide +kernel,
    fun _ h => absurd h.2.1 (by simp [windowed, sys, Dev.modFn]), fun _ h => absurd h.1 (by decide +kernel), by decide, by decide +kernel⟩
  · simp only [List.mem_cons, List.not_mem_nil, or_false] at h
    rcases h with rfl | rfl | rfl <;>
      exact ⟨by decide +kernel, by decide +kernel, by decide +kernel, of_random 0, ⟨some 0, false, .random 0⟩, by decide +kernel, rfl, rfl⟩
  · have e : (windowed .error).d.keySlot ((windowed .error).d.fns[(0 : FnId)].hkey.setWidth 12) = some ⟨some 0, false, .random 0⟩ := by decide +kernel
    obtain rfl := Option.some.inj (e.symm.trans h)
    exact of_random 0

theorem test_hostRead :
    answers (exec (.hostMemoryRead 0 0x100 4 false) (windowed .unlocked)) = [.hostData 0 [1, 2, 3, 0] false] ∧
    answers (exec (.hostMemoryRead 0 0x80000000 2 false) (windowed .run)) = [.hostData 0 [0xFF, 0xFF] false] := by decide +kernel
theorem test_hostWrite :
    (after (exec (.hostMemoryWrite 0 0x101 [9] false) (windowed .unlocked))).d.readMem ⟨.random 0, none⟩ 0x100 3 = [1, 9, 3] := by decide +kernel
theorem test_registerWrite :
    (after (exec (.registerWrite 0 0x8 77) user)).d.cfgRead 0 0x8 = 77 ∧ (after (exec (.registerWrite 0 0x18 77) user)).d.cfgRead 0 0x18 = 0 ∧
    user.d.cfgRead 0 0x9 = BitVec.allOnes 64 := by decide +kernel
theorem test_hkey :
    (after (exec (.hkeyWrite 0 0x1001) user)).d.cfgRead 0 0x108 = 0x1001 ∧ (after (exec (.hkeyWrite 0 0x1009) user)).d.cfgRead 0 0x108 = 0 := by decide +kernel
theorem test_therm :
    (after (exec (.thermWrite 0 0x100) (user.modD fun d => { d with warn := true, tmax := 99 }))).d.cfgRead 0 0x110 = 99 := by decide +kernel
theorem test_cfgRead :
    (withQueue { readyQueue with prio := 7, recs := [pendingRec 0], err := true }).d.cfgRead 0 0x200 = 0xF ∧
    (withQueue { readyQueue with prio := 7, recs := [pendingRec 0], err := true }).d.cfgRead 0 0x400 = 0x81 ∧
    (repairing (upFrom 1 512)).d.cfgRead 0 0x710 = 0x200000001 := by decide +kernel

theorem test_witness_PeerAccesses :
    (windowed .run).d.keySlot 1 = some ⟨some 0, false, .random 0⟩ ∧ (0x100 + 8 ≤ 512000000000 ∧ 0x100 % 8 = 0) ∧
    (windowed .run).d.locked 0x100 8 = false ∧ (windowed .run).d.gone 0x100 8 = false ∧ (windowed .run).d.memPoisoned 0x100 8 = false ∧
    ((windowed .run).modD fun d => { d with memP := [4] }).d.memPoisoned 0x100 8 = true ∧
    ((windowed .run).modD fun d => { d with lost := [0] }).d.gone 0x100 8 = true ∧
    OfSlot (.random 0) ∧ 3 ≠ thisDevice ∧
    (let w : Window := windowAt []
     let s := user.modD fun d => { d with locs := [w] }
     s.d.locs.find? (fun w => w.loc == 0x48) = some w ∧ 3 ∈ w.parts ∧ (∀ p ∈ w.partials, p.1 ≠ 3)) := by
  refine ⟨by decide +kernel, by decide, by decide +kernel, by decide +kernel, by decide +kernel, by decide +kernel, by decide +kernel, of_random 0, by decide,
    by decide +kernel⟩

theorem test_peerRead : answers (exec (.ergPeerAccess 3 (.read 0x100 3 1)) (windowed .run)) = [.peerData 3 [1, 2, 3] false] := by decide +kernel
theorem test_peerAtomic :
    let t := after (exec (.ergPeerAccess 3 (.atomic .add 0x100 false 0x10 0 1)) (windowed .run))
    t.d.resps = [.peerData 3 [1, 2, 3, 0] false] ∧ t.d.readMem ⟨.random 0, none⟩ 0x100 4 = [0x11, 2, 3, 0] := by decide +kernel

/-! ### Encodings -/

/-- The words of an operation: header, body, control word. -/
def sWord (body cw : Nat) : List Byte := bytesOf 4 0x1 ++ bytesOf 8 body ++ bytesOf 32 cw

/-- R131, R134: loop.br of the worked loop, displacement −18, control word 0x185. -/
theorem test_decode_loopBr : decode (sWord 0x000003FFFFB80004 0x185) = some (.loopBr ⟨4, 0, 0xFFFFEE, gd0, 0⟩) := by decide +kernel
/-- R135: syscall 2 of chapter 19, CX 5. -/
theorem test_decode_syscall : decode (sWord 0x0020010101000005 0x18B) = some (.syscall { sample .syscall with cx := 5, imm := 2, w := 0, d := 0 }) := by
  decide +kernel
/-- R126: mtsw to AOWN from s28 under guard 5, CX 10. -/
theorem test_decode_mtsw : decode (sWord 0x00C015010070000A 0x187) =
    some (.mtsw { sample .mtsw with cx := 10, a := .reg 28, imm := 12, w := 0, d := 0, gd := ⟨5, false, none⟩ }) := by decide +kernel
theorem test_decode_red : decode (bytesOf 4 0x400 ++ bytesOf 8 0x22148) = some (.redAdd ⟨false, false, 5, .glob, some 4, 0, 0, 0, gd0⟩) := by decide +kernel
theorem test_decode_ld : decode (bytesOf 4 0x100 ++ bytesOf 8 0x0010080000022070) =
    some (.ld ⟨true, true, 1, .glob, some 4, 0, 8, 1, gd0⟩) := by decide +kernel
theorem test_decode_vadd : decode (bytesOf 4 0x4 ++ bytesOf 8 0x0000010236301200 ++ bytesOf 32 0x0C0CC601) =
    some (.vadd ⟨.va, 0, 1, 2, false, .latch 12, .latch 13, .zero, gd0, 0, 6,
      { CtlWord.plain with fa := .f32, fb := .f32, fd := .f32 }⟩) := by decide +kernel
theorem test_decode_mx : decode (bytesOf 4 0x40 ++ bytesOf 8 0x0080A00000A0440C) = some (.mxCall ⟨12, 0, .loadUse, 4, false, 80, gd0, some (2, 0x80)⟩) := by
  decide +kernel
/-- R86: OP 1010, DB 1, SSP 001, SB 2, LEN 47. -/
theorem test_decode_bxGth : decode (bytesOf 4 0x1000 ++ bytesOf 6 0x2F0880020A) = some (.bxGth ⟨.plain, .loc, 1, 0, .clu, 2, 47, gd0⟩) := by decide +kernel
theorem test_decode_sy :
    decode (bytesOf 4 0x4000 ++ bytesOf 6 0x86) = some (.barWait (syOp 2 0 0)) ∧ decode (bytesOf 4 0x4000 ++ bytesOf 6 0x0B) = some (.syFrame (syOp 0 0 0)) ∧
    decode (bytesOf 4 0x4000 ++ bytesOf 6 0x0040000C) = some (.syPhase (syOp 0 0 1)) ∧
    decode (bytesOf 4 0x4000 ++ bytesOf 6 0x09000009) = some (.syQjoin (syOp 0 0 0x24)) ∧
    decode (bytesOf 4 0x4000 ++ bytesOf 6 0x10) = some (.syYield (syOp 0 0 0)) := by decide +kernel
/-- The micro-words of chapters 07 and 15. -/
theorem test_decode_micro :
    decodeMicro 0x6501 = some (.lat ⟨false, .glob, 1, 3, 0⟩) ∧ decodeMicro 0x26501 = some (.lat ⟨false, .glob, 1, 3, 2⟩) ∧
    decodeMicro 0x1040D0 = some (.mma .e4m3 ⟨3, false, 0, .glob, 0, 2, false, 0, false, false⟩) ∧ decodeMicro 0x8000000020 = some (.adv ⟨0, none, 128⟩) ∧
    decodeMicro 0x1A60 = some (.adv ⟨1, some 5, 0⟩) ∧ decodeMicro 0x0121 = some (.loop ⟨4, 0⟩) ∧ decodeMicro 0x3F = some .end_ ∧
    decodeMicro 0x858B18 = some (.drain ⟨.f32, .glob, 4, 5, 0, true⟩) := by decide +kernel
/-- Reserved encodings are refused: OP 0111 of the CP slot, SY code 0x15 of no row, a reserved header bit. -/
theorem test_decode_refuses :
    decode (bytesOf 4 0x1000 ++ bytesOf 6 0x7) = none ∧ decode (bytesOf 4 0x100 ++ bytesOf 8 0x000000000000000F) = none ∧
    decodeMicro 0x2 = none ∧ decode (bytesOf 4 1 ++ bytesOf 8 0x0010010104245001 ++ bytesOf 32 0x07077701) = none := by decide +kernel

theorem test_witness_DecodeOfEncode :
    (∀ i ∈ [Instr.add addOp, .vadd (sample .vadd), .ld (memOp .ld .loc), .stFill (memOp .stFill .clu), .br ⟨4, 0, 0x800000, gd0, 0⟩, .mxCall (mxOp .loadUse),
        .cpCopy (cpOp .fe), .syWaitb (syOp 0 0 65535), .cwtWr (sample .cwtWr)],
      i.wf = true ∧ i.toSlot.isSome = true) ∧
    (Instr.add addOp).toSlot.map SlotOp.sup = some false ∧ (Instr.syYieldPark (syOp 0 0 0)).toSlot.map SlotOp.sup = some true := by
  refine ⟨?_, by decide +kernel, by decide +kernel⟩
  intro i h
  simp only [List.mem_cons, List.not_mem_nil, or_false] at h
  rcases h with rfl | rfl | rfl | rfl | rfl | rfl | rfl | rfl | rfl <;> decide +kernel

/-- A step of the placed `add` is one. -/
theorem addPlaced_steps : addPlaced.Steps (after (step addPlaced)) := by
  have h : (match step addPlaced with
      | .next _ => true
      | _ => false) = true := by decide +kernel
  unfold State.Steps after
  split at h
  · rename_i t e
    rw [e]
  · simp at h

theorem test_witness_SlotLimitsAreKept :
    State.reset.slotsInLimits ∧ addPlaced.slotsInLimits ∧ addPlaced.Steps (after (step addPlaced)) :=
  ⟨by unfold State.slotsInLimits; decide +kernel, by unfold State.slotsInLimits; decide +kernel, addPlaced_steps⟩
theorem test_witness_GuardZeroIsKept :
    State.reset.g0Ones ∧ addPlaced.g0Ones ∧ addPlaced.Steps (after (step addPlaced)) :=
  ⟨by unfold State.g0Ones; decide +kernel, by unfold State.g0Ones; decide +kernel, addPlaced_steps⟩
theorem test_witness_StoresStayCanonical :
    State.reset.memoriesWf ∧ addPlaced.memoriesWf ∧ addPlaced.Steps (after (step addPlaced)) :=
  ⟨⟨by decide +kernel, by decide +kernel, by decide +kernel, nofun, by decide +kernel⟩,
   ⟨by decide +kernel, by decide +kernel, by decide +kernel,
    by rw [show addPlaced.d.streams = [] from List.isEmpty_iff.mp (by decide +kernel)]; nofun, by decide +kernel⟩, addPlaced_steps⟩

/-! ### Terms that are not well formed, one for each check -/

theorem test_wf_sample : (AluOp.wf .add addOp) = true ∧ (∀ t ∈ [AluTag.vperm, .vbcast, .vrow, .vcvt, .mfsw, .syscall], (sample t).maskOk t = true) := by
  decide +kernel
theorem test_wf_mask : ({ addOp with msk := 2 }).maskOk .add = false := by decide +kernel
theorem test_wf_source : OpKind.g.srcOk (.reg 16) = false ∧ OpKind.none.srcOk .imm = false ∧ OpKind.bank.srcOk .k0 = false := by decide +kernel
theorem test_wf_destination : OpKind.g.destOk 16 false = false ∧ OpKind.mp.destOk 8 false = false ∧ OpKind.none.destOk 1 false = false := by decide +kernel
theorem test_wf_format : FmtClass.allows .int .f32 = false ∧ FmtClass.allows .zero .i8 = false ∧ FmtClass.allows .ph .phc32 = false := by decide +kernel
theorem test_wf_pre :
    ({ addOp with cw := { addOp.cw with prea := ⟨false, false, true, false, 0⟩ } }).preOk .add = false ∧
    ({ sample .vperm with cw := { (sample .vperm).cw with prea := ⟨true, false, false, false, 0⟩ } }).preOk .vperm = false := by decide +kernel
theorem test_wf_post :
    ({ addOp with cw := { addOp.cw with post := .rsum } }).postOk .add = false ∧
    ({ sample .vadd with cw := { (sample .vadd).cw with post := .conv } }).postOk .vadd = false := by decide +kernel
theorem test_wf_pair : ({ sample .rotl with cw := { (sample .rotl).cw with fd := .i8 } }).pairOk .rotl = false := by decide +kernel
theorem test_wf_imm : ({ sample .gtos with imm := 2 }).immOk .gtos = false ∧ ({ sample .mfsw with imm := 0x017 }).immOk .mfsw = false ∧
    ({ sample .mtsw with imm := 0x013 }).immOk .mtsw = false := by decide +kernel
theorem test_wf_perm : ({ addOp with cw := { addOp.cw with perm := 1 } }).permOk .add = false := by decide +kernel
theorem test_wf_width : ({ addOp with w := 2 }).widthOk = false ∧ ({ sample .vadd with w := 3 }).widthOk = false := by decide +kernel
theorem test_wf_branch : (BrOp.wf ⟨4, 1, 0, gd0, 0⟩) = false := by decide +kernel
theorem test_wf_mx : ({ mxOp .loadOnly with acc := true }).wf = false := by decide +kernel
theorem test_wf_mem :
    (memOp .ldAcq .loc).encOk .ldAcq = false ∧ ({ memOp .st .loc with land := 1 }).encOk .st = false ∧
    ({ memOp .atCas .loc with reg := 3, nr := true }).encOk .atCas = false ∧ ({ memOp .ld .loc with k := false, w := 2 }).widthOk = false := by decide +kernel
theorem test_wf_cp : CpOp.wf .cpCopy { cpOp .fe with dsp := .glob } = false ∧ CpOp.wf .bxGth { cpOp .plain with len := 48 } = false ∧
    CpOp.wf .cpFill { cpOp .plain with ssp := .clu } = false := by decide +kernel
theorem test_wf_sy : SyOp.wf .syFence (syOp 0 0 5) = false ∧ SyOp.wf .syQjoin (syOp 0 0 0) = false ∧ SyOp.wf .barWait (syOp 2 1 0) = false := by decide +kernel
theorem test_wf_micro : (Micro.lat ⟨false, .spill, 1, 3, 0⟩).wf = false ∧ (Micro.mma .bf16 ⟨0, false, 0, .loc, 0, 2, false, 0, true, false⟩).wf = false ∧
    (Micro.drain ⟨.f16, .loc, 6, 7, 0, false⟩).wf = false ∧ (Micro.adv ⟨1, some 5, 1⟩).wf = false := by decide +kernel

/-! ### The cipher of memory -/

/-- R390, FIPS 197, C.3: a block under the 256-bit key of bytes 0 to 31. -/
theorem test_aes : natOf (Aes.encrypt ((List.range 32).map (BitVec.ofNat 8)) ((List.range 16).map fun i => BitVec.ofNat 8 (17 * i))).reverse =
    0x8ea2b7ca516745bfeafc49904b496089 := by decide +kernel

end Sys2Proof.Tests
end

section
/-! PROOFS. What an operation of the S slot leaves once it issues: the result it hands to the end of its cycle. -/

namespace Sys2Proof.Machine
open Sys2Proof Sys2Proof.Stated

/-- Two changes of the issuing core that agree on that core are one change. -/
theorem State.modMe_congr {s : State} {f g : Core → Core} (h : f s.me = g s.me) : s.modMe f = s.modMe g :=
  congrArg (s.setCore s.cur) h

/-- R119, R120: a scalar write is the scalar result of the operation's own latency. -/
theorem Core.sWrite_eq (k : Core) (t : AluTag) (o : AluOp) (r : SOut) :
    k.sWrite t o r = k.push (scalarResult k t o (sLatency t o) r.val r.flags) := rfl

/-- A choice between two scalar results is the scalar result of what is chosen. -/
theorem Core.push_scalarResult_ite (k : Core) (t : AluTag) (o : AluOp) (L : Nat) (p : Prop) [Decidable p] (x y : SOut) :
    k.push (scalarResult k t o L (if p then x else y).val (if p then x else y).flags) =
      k.push (if p then scalarResult k t o L x.val x.flags else scalarResult k t o L y.val y.flags) := by
  split <;> rfl

/-- R119, R120: a guard write of an operation of one cycle is its guard result. -/
theorem Core.gWrite_eq (k : Core) {t : AluTag} {o : AluOp} (hL : sLatency t o = 1) (val mask : W128) (latch : W64) :
    k.gWrite t o val mask latch = k.push (guardResult k t o val mask latch) := by
  simp only [Core.gWrite, Core.sPend, hL]
  rfl

section
variable {t : AluTag} {o : AluOp} {s : State} (h : Issues (.alu t o) s)
include h

/-- R18, R92: an operation that issues has its effect. -/
theorem slotStep_issues (e : State → State) : slotStep (.alu t o) e s = .next (e s) :=
  slotStep_runs e h.1 h.2

/-- R119, R120: an operation of the S slot that issues leaves its scalar result, in its latency. -/
theorem sOut_issues (f : Core → SOut) :
    sOut t o f s = .next (s.modMe fun k => k.push (scalarResult k t o (sLatency t o) (f k).val (f k).flags)) :=
  slotStep_issues h _

/-- R119, R123: a compare that issues writes its truth to every bit of its guard, and 1 or 0 to the latch. -/
theorem sCmp_issues (hL : sLatency t o = 1) (f : Core → Bool) :
    sCmp t o f s = .next (s.modMe fun k => k.push
      (guardResult k t o (if f k then BitVec.allOnes 128 else 0) (BitVec.allOnes 128) (if f k then 1 else 0))) := by
  simp only [sCmp, slotStep_issues h, Core.gWrite_eq _ hL]

/-- R119, R124: a guard operation that issues writes all 128 bits, and the latch takes bits 63 to 0. -/
theorem sGuard_issues (hL : sLatency t o = 1) (f : W128 → W128 → W128) :
    sGuard t o f s = .next (s.modMe fun k => k.push
      (guardResult k t o (f (k.srcG o.a) (k.srcG o.b)) (BitVec.allOnes 128) ((f (k.srcG o.a) (k.srcG o.b)).setWidth 64))) := by
  simp only [sGuard, slotStep_issues h, Core.gWrite_eq _ hL]

end

/-! ### The steps of division and of the guards, each by the shape of its result -/

theorem exec_div (o : AluOp) (s : State) :
    exec (.div o) s = sOut .div o (fun k => divOut o (k.sInts o).1 (k.sInts o).2.1) s := rfl

theorem exec_rem (o : AluOp) (s : State) :
    exec (.rem o) s = sOut .rem o (fun k => remOut o (k.sInts o).1 (k.sInts o).2.1) s := rfl

theorem exec_gtos (o : AluOp) (s : State) :
    exec (.gtos o) s = sOut .gtos o (fun k => ⟨(k.srcG o.a).extractLsb' (64 * o.imm.toNat) 64, 0⟩) s := rfl

theorem exec_stog (o : AluOp) (s : State) :
    exec (.stog o) s = slotStep (.alu .stog o) (fun s => s.modMe fun k =>
      k.gWrite .stog o ((k.scalarSrc o .none o.a).setWidth 128 <<< (64 * o.imm.toNat))
        (BitVec.ofNat 128 (2 ^ 64 - 1) <<< (64 * o.imm.toNat)) (k.scalarSrc o .none o.a)) s := rfl

/-- R120, R123, R125: each compare is a compare of one cycle with the truth of its row. -/
theorem exec_of_mem_compareRows :
    ∀ r ∈ compareRows, ∀ (o : AluOp) (s : State),
      exec (r.1 o) s = sCmp r.2.1 o (fun k => r.2.2 k o) s ∧ sLatency r.2.1 o = 1 := by
  simp only [compareRows, List.forall_mem_cons]
  exact ⟨fun _ _ => ⟨rfl, rfl⟩, fun _ _ => ⟨rfl, rfl⟩, fun _ _ => ⟨rfl, rfl⟩, fun _ _ => ⟨rfl, rfl⟩,
    fun _ _ => ⟨rfl, rfl⟩, fun _ _ => ⟨rfl, rfl⟩, nofun⟩

/-- R120, R124: each guard operation is one of one cycle with the function of its row. -/
theorem exec_of_mem_guardRows :
    ∀ r ∈ guardRows, ∀ (o : AluOp) (s : State),
      exec (r.1 o) s = sGuard r.2.1 o r.2.2 s ∧ sLatency r.2.1 o = 1 := by
  simp only [guardRows, List.forall_mem_cons]
  exact ⟨fun _ _ => ⟨rfl, rfl⟩, fun _ _ => ⟨rfl, rfl⟩, fun _ _ => ⟨rfl, rfl⟩, fun _ _ => ⟨rfl, rfl⟩, nofun⟩

end Sys2Proof.Machine
end

section
/-! PROOFS. Integers brought into an integer format, wrapped or saturated (R72, R95, R118, R119). -/

namespace Sys2Proof

theorem Fmt.isInt_of_isI {f : Fmt} (h : f.isI = true) : f.isInt = true := by
  simp [Fmt.isInt, h]

theorem Fmt.width_pos {f : Fmt} (h : f.isInt = true) : 0 < f.width := by
  revert h
  cases f <;> decide

/-- The range of an integer format has two halves. -/
theorem Fmt.two_pow_width {f : Fmt} (h : f.isInt = true) : (2 : Int) ^ f.width = 2 * 2 ^ (f.width - 1) :=
  (mul_pow_sub_one (Fmt.width_pos h).ne' 2).symm

end Sys2Proof

namespace Sys2Proof.Machine
open Sys2Proof

theorem wrapTo_cast (w : Nat) (i : Int) : (wrapTo w i : Int) = i % 2 ^ w :=
  Int.toNat_of_nonneg (Int.emod_nonneg _ (by positivity))

theorem wrapTo_lt (w : Nat) (i : Int) : wrapTo w i < 2 ^ w := by
  have h : (wrapTo w i : Int) < 2 ^ w := wrapTo_cast w i ▸ Int.emod_lt_of_pos i (by positivity)
  exact_mod_cast h

/-- R95: a wrapped integer reads in an n format as its residue. -/
theorem intOf_wrapTo_of_not_isI {f : Fmt} (h : f.isI = false) (i : Int) : intOf f (wrapTo f.width i) = i % 2 ^ f.width := by
  simp [intOf, h, Nat.mod_eq_of_lt (wrapTo_lt f.width i), wrapTo_cast]

/-- R95: a wrapped integer reads in an i format as its balanced residue. -/
theorem intOf_wrapTo_of_isI {f : Fmt} (h : f.isI = true) (i : Int) :
    intOf f (wrapTo f.width i) = Int.bmod i (2 ^ f.width) := by
  have hw := Fmt.two_pow_width (Fmt.isInt_of_isI h)
  simp only [intOf, h, Nat.mod_eq_of_lt (wrapTo_lt f.width i), Bool.true_and, decide_eq_true_eq, Int.bmod,
    ← Int.ofNat_le, wrapTo_cast]
  push_cast
  split <;> split <;> omega

theorem intMin_nonpos (f : Fmt) : intMin f ≤ 0 := by
  unfold intMin
  split
  · simp
  · rfl

theorem intMax_nonneg (f : Fmt) : 0 ≤ intMax f := by
  have h (n : Nat) : (1 : Int) ≤ 2 ^ n := one_le_pow₀ (by norm_num)
  unfold intMax
  split
  · exact Int.sub_nonneg_of_le (h _)
  · exact Int.sub_nonneg_of_le (h _)

/-- R95: an integer within the range of an integer format is read back from its pattern. -/
theorem intOf_wrapTo_of_range {f : Fmt} (h : f.isInt = true) {i : Int} (hl : intMin f ≤ i) (hh : i ≤ intMax f) :
    intOf f (wrapTo f.width i) = i := by
  have hw : (2 : Int) ^ f.width = 2 * 2 ^ (f.width - 1) := Fmt.two_pow_width h
  cases hi : f.isI with
  | true =>
    simp only [intMin, intMax, hi, if_true] at hl hh
    rw [intOf_wrapTo_of_isI hi]
    apply Int.bmod_eq_of_le_mul_two <;> push_cast <;> omega
  | false =>
    simp only [intMin, intMax, hi, Bool.false_eq_true, if_false] at hl hh
    rw [intOf_wrapTo_of_not_isI hi, Int.emod_eq_of_lt hl (by omega)]

/-- R95: without SAT an integer wraps into its format. -/
theorem bringInt_none (f : Fmt) (i : Int) : bringInt f .none i = ⟨wrapTo f.width i, false⟩ := rfl

/-- R72: with SAT an integer is bounded to the range of its format, and the bound is applied exactly outside that range. -/
theorem bringInt_of_sat (f : Fmt) {m : Sat} (hm : m ≠ .none) (i : Int) :
    bringInt f m i = ⟨wrapTo f.width (max (intMin f) (min i (intMax f))), decide (i < intMin f ∨ intMax f < i)⟩ := by
  have hl := intMin_nonpos f
  have hh := intMax_nonneg f
  have hb : (if i < intMin f ∨ intMax f < i then (if i < 0 then intMin f else intMax f) else i) =
      max (intMin f) (min i (intMax f)) := by
    split
    · split <;> omega
    · omega
  rw [← hb]
  by_cases ho : i < intMin f ∨ intMax f < i <;> simp [bringInt, hm, ho]

section
variable {o : AluOp} {r v : Int} (hv : (if o.cw.post = .clamp then clampInt o r else r) = v)
include hv

/-- R118: a result, bounded under POST clamp, is brought into FD under SAT. -/
theorem finishS_eq :
    finishS o r = ⟨extend64 o.cw.fd (bringInt o.cw.fd o.cw.sat v).pat, satFlag o.cw.sat (bringInt o.cw.fd o.cw.sat v)⟩ :=
  hv ▸ rfl

/-- R118, R119: a result without SAT wraps into FD and sets no flag. -/
theorem finishS_of_wrap (hs : o.cw.sat = .none) : finishS o r = ⟨extend64 o.cw.fd (wrapTo o.cw.fd.width v), 0⟩ := by
  rw [finishS_eq hv, hs, bringInt_none]
  rfl

/-- R72, R118, R119: a result under SAT is bounded to the range of FD. -/
theorem finishS_val_of_sat (hf : o.cw.fd.isInt = true) (hs : o.cw.sat ≠ .none) :
    (finishS o r).val = BitVec.ofInt 64 (max (intMin o.cw.fd) (min v (intMax o.cw.fd))) := by
  have hl := intMin_nonpos o.cw.fd
  have hh := intMax_nonneg o.cw.fd
  rw [finishS_eq hv, bringInt_of_sat _ hs, extend64, intOf_wrapTo_of_range hf] <;> omega

/-- R72: under SAT the flag is set exactly under SAT 10 where the bound was applied. -/
theorem finishS_flags_of_sat (hs : o.cw.sat ≠ .none) :
    (finishS o r).flags = if o.cw.sat = .satf ∧ (v < intMin o.cw.fd ∨ intMax o.cw.fd < v) then flagSat else 0 := by
  simp [finishS_eq hv, bringInt_of_sat _ hs, satFlag, Flags.when]

end

end Sys2Proof.Machine
end

section
/-! PROOFS. Division and the overflow of integer results (R72, R95, R118 to R120, R122). -/

namespace Sys2Proof.Stated
open Sys2Proof Sys2Proof.Machine

theorem integerResultsWrapOrSaturate : IntegerResultsWrapOrSaturate := by
  intro o r hf v w lo hi
  refine ⟨fun hs => ?_, fun hs => ⟨finishS_val_of_sat rfl hf hs, finishS_flags_of_sat rfl hs⟩⟩
  rw [finishS_of_wrap rfl hs]
  refine ⟨congrArg (BitVec.ofInt 64) ?_, rfl⟩
  cases hI : o.cw.fd.isI with
  | true => exact intOf_wrapTo_of_isI hI v
  | false => exact intOf_wrapTo_of_not_isI hI v

/-- R122: half a format's range, the quotient of the least integer by −1, wraps to the least integer. -/
theorem bmod_half_width {f : Fmt} (h : f.isInt = true) :
    Int.bmod (2 ^ (f.width - 1)) (2 ^ f.width) = -(2 ^ (f.width - 1)) := by
  have hw := Fmt.two_pow_width h
  have hp : (0 : Int) < 2 ^ (f.width - 1) := by positivity
  rw [Int.bmod_eq_iff (by positivity)]
  push_cast
  exact ⟨by omega, by omega, -1, by omega⟩

theorem leastQuotient : LeastQuotient := by
  intro o hI hp a
  have hf := Fmt.isInt_of_isI hI
  have hw := Fmt.two_pow_width hf
  have hpos : (0 : Int) < 2 ^ (o.cw.fd.width - 1) := by positivity
  have hq : a.tdiv (-1) = 2 ^ (o.cw.fd.width - 1) := by simp [a]
  have hr : a - a.tdiv (-1) * (-1) = 0 := by rw [hq]; simp [a]
  obtain ⟨qWrap, qSat⟩ := integerResultsWrapOrSaturate o (2 ^ (o.cw.fd.width - 1)) hf
  obtain ⟨zWrap, zSat⟩ := integerResultsWrapOrSaturate o 0 hf
  simp only [hp, hI, if_true, if_false] at qWrap qSat zWrap zSat
  rw [hr, hq]
  refine ⟨fun hs => ?_, fun hs => ?_, ?_⟩
  · rw [(qWrap hs).1, bmod_half_width hf]
  · rw [(qSat hs).1]
    congr 1
    omega
  · by_cases hs : o.cw.sat = .none
    · rw [(zWrap hs).1, Int.zero_bmod]
      rfl
    · rw [(zSat hs).1, show max (-2 ^ (o.cw.fd.width - 1)) (min 0 (2 ^ (o.cw.fd.width - 1) - 1)) = (0 : Int) by omega]
      rfl

theorem divisionResults : DivisionResults := by
  intro o s a b L
  refine ⟨fun h => ?_, fun h => ?_⟩
  · rw [exec_div, sOut_issues h]
    exact congrArg _ (State.modMe_congr (Core.push_scalarResult_ite s.me .div o L (b = 0) _ _))
  · rw [exec_rem, sOut_issues h]
    exact congrArg _ (State.modMe_congr (Core.push_scalarResult_ite s.me .rem o L (b = 0) _ _))

end Sys2Proof.Stated
end

section
/-! PROOFS. The compares, the guard operations, their encodings and the register names (R17, R21, R67, R92, R123, R124). -/

namespace Sys2Proof
open Sys2Proof.Machine

/-- R67: a guard or bank source is a register name below 16. -/
theorem OpKind.reg_of_srcOk_g {x : Src} (h : OpKind.g.srcOk x = true) : ∃ n : Fin 16, x = .reg (BitVec.ofNat 6 n.val) := by
  cases x with
  | reg n => exact ⟨⟨n.toNat, of_decide_eq_true h⟩, by simp⟩
  | zero | imm | k0 | k1 | latch _ => simp [OpKind.srcOk] at h

/-- R77, R124: the guard operations over all 128 bits take guards as both sources. -/
theorem AluTag.guard_sources_of_guardOp : ∀ t ∈ [AluTag.gand, .gor, .gxor, .gandn], t.row.ak = .g ∧ t.row.bk = .g := by
  decide

/-- R77, R121: the map marks no SAT in the rows of the compares of the S slot. -/
theorem AluTag.no_sat_of_compare :
    ∀ t ∈ [AluTag.cmpEq, .cmpNe, .cmpLt, .cmpLe], t.row.vec = false ∧ t.row.sat = false := by
  decide

section
variable {t : AluTag} {o : AluOp} (h : o.encOk t = true)
include h

/-- R67: the fields of an admitted operation suit the kinds of its sources, its POST and SAT, and its IMM12. -/
theorem AluOp.fields_of_encOk : t.row.ak.srcOk o.a = true ∧ t.row.bk.srcOk o.b = true ∧ o.postOk t = true ∧ o.immOk t = true := by
  simp only [AluOp.encOk, Bool.and_eq_true] at h
  tauto

theorem AluOp.guard_a_of_encOk (hk : t.row.ak = .g) : ∃ n : Fin 16, o.a = .reg (BitVec.ofNat 6 n.val) := by
  obtain ⟨ha, -, -, -⟩ := AluOp.fields_of_encOk h
  exact OpKind.reg_of_srcOk_g (hk ▸ ha)

theorem AluOp.guard_b_of_encOk (hk : t.row.bk = .g) : ∃ n : Fin 16, o.b = .reg (BitVec.ofNat 6 n.val) := by
  obtain ⟨-, hb, -, -⟩ := AluOp.fields_of_encOk h
  exact OpKind.reg_of_srcOk_g (hk ▸ hb)

/-- R118: an operation of the S slot whose row does not mark SAT takes none. -/
theorem AluOp.sat_of_encOk (hv : t.row.vec = false) (hs : t.row.sat = false) : o.cw.sat = .none := by
  obtain ⟨-, -, hp, -⟩ := AluOp.fields_of_encOk h
  simp only [AluOp.postOk, hv, hs, Bool.false_eq_true, if_false, Bool.or_false] at hp
  split at hp
  · simp only [Bool.and_eq_true, beq_iff_eq] at hp
    exact hp.2
  · simp only [Bool.and_eq_true, beq_iff_eq] at hp
    exact hp.1.1

end

end Sys2Proof

namespace Sys2Proof.Machine
open Sys2Proof

/-- R92: ENCODING is the first check of an operation. -/
theorem State.checks_of_not_encOk {x : SlotOp} (h : x.encOk = false) (s : State) (c : CoreId) :
    s.checks c [(x.slot, x)] = some ⟨.encoding, x.slot.val, 0⟩ := by
  simp [State.checks, State.scan, firstTrap, failIf, h]

/-- R17, R21: the physical number of a scalar or vector name is below 64 whatever RB holds. -/
theorem physReg_toNat (rb : BitVec 4) (n : BitVec 6) :
    (physReg rb n).toNat = if n.toNat < 48 then n.toNat else 48 + (n.toNat - 48 + rb.toNat) % 16 := by
  unfold physReg
  by_cases h : n.toNat < 48
  · rw [if_neg (by omega), if_pos h]
  · rw [if_pos (by omega), if_neg h, BitVec.toNat_ofNat]
    omega

theorem physGuard_toNat (rb n : BitVec 4) :
    (physGuard rb n).toNat = if n.toNat < 8 then n.toNat else 8 + (n.toNat - 8 + rb.toNat) % 8 := by
  unfold physGuard
  by_cases h : n.toNat < 8
  · rw [if_neg (by omega), if_pos h]
  · rw [if_pos (by omega), if_neg h, BitVec.toNat_ofNat]
    omega

@[simp] theorem Core.readG_zero (k : Core) : k.readG 0 = BitVec.allOnes 128 := rfl
@[simp] theorem Core.writeG_zero (k : Core) (mask v : W128) (poison : Bool) : k.writeG 0 mask v poison = k := rfl

end Sys2Proof.Machine

namespace Sys2Proof.Stated
open Sys2Proof Sys2Proof.Machine

theorem scalarComparesWriteGuards : ScalarComparesWriteGuards := by
  intro r hr o s h
  obtain ⟨he, hL⟩ := exec_of_mem_compareRows r hr o s
  rw [he, sCmp_issues h hL]

theorem guardOperations : GuardOperations := by
  refine ⟨fun r hr o s h => ?_, fun o s h => ?_, fun o s h => ?_⟩
  · obtain ⟨he, hL⟩ := exec_of_mem_guardRows r hr o s
    rw [he, sGuard_issues h hL]
  · rw [exec_gtos, sOut_issues h]
    rfl
  · simp only [exec_stog, slotStep_issues h, Core.gWrite_eq (t := .stog) (o := o) _ rfl]

theorem guardEncodings : GuardEncodings := by
  refine ⟨fun x s h => State.checks_of_not_encOk h s s.cur, fun o t ht h => ?_, fun o h => ?_, fun o h => ?_, fun o t ht h => ?_⟩
  · obtain ⟨ha, hb⟩ := AluTag.guard_sources_of_guardOp t ht
    obtain ⟨a, ha⟩ := AluOp.guard_a_of_encOk h ha
    obtain ⟨b, hb⟩ := AluOp.guard_b_of_encOk h hb
    exact ⟨a, b, ha, hb⟩
  · obtain ⟨-, -, -, hi⟩ := AluOp.fields_of_encOk h
    obtain ⟨n, hn⟩ := AluOp.guard_a_of_encOk h rfl
    exact ⟨of_decide_eq_true hi, n, hn⟩
  · obtain ⟨-, -, -, hi⟩ := AluOp.fields_of_encOk h
    exact of_decide_eq_true hi
  · obtain ⟨hv, hs⟩ := AluTag.no_sat_of_compare t ht
    exact AluOp.sat_of_encOk h hv hs

theorem registerNames : RegisterNames :=
  ⟨Core.readG_zero, Core.writeG_zero, physReg_toNat, physGuard_toNat⟩

/-- Settles O3: a quotient is the truncated one brought into FD, all ones or a on a zero divisor, and what leaves FD wraps or
is bounded as SAT says. -/
theorem divisionAndOverflow : Obligations.DivisionAndOverflow :=
  ⟨divisionResults, leastQuotient, integerResultsWrapOrSaturate⟩

/-- Settles O4: each compare and guard operation is one of its row, and the encodings and names follow from the operation map
and from the rotation of names. -/
theorem guardResults : Obligations.GuardResults :=
  ⟨scalarComparesWriteGuards, guardOperations, guardEncodings, registerNames⟩

end Sys2Proof.Stated
end
